-- ==== Sys2Proof/Word.lean ====
section
/-! DEFINITION. The values the block moves: bytes, levels and cycle counts (00_scope R5). -/

namespace Sys2Proof

/-- An 8-bit value: the request's data, the shift registers, a queue entry. -/
abbrev Byte := BitVec 8

/-- A 1-bit level of the line: false is 0, space; true is 1, mark (R5). -/
abbrev Level := Bool

/-- A level as the number the spec writes for it. -/
def levelNat (l : Level) : Nat := if l then 1 else 0

end Sys2Proof
end

