-- ==== Sys2Proof/Config.lean ====
section
/-! DEFINITION. The configuration of an instance (00_scope R4, 10_state R10) and the one free value of
the model. The OPEN parameters of R4 are fields of `Cfg`, which State holds and no clock cycle changes,
so a statement about every state is a statement about every instance. -/

namespace Sys2Proof

/-- Order of the data bits on the wire (R4, R45). -/
inductive BitOrder where
  | lsb
  | msb
  deriving DecidableEq, Repr

/-- Parity segment (R4, R65). -/
inductive ParityMode where
  | none
  | even
  | odd
  deriving DecidableEq, Repr

/-- What a push to a full queue does (R4, 20_memory R43). -/
inductive OverflowPolicy where
  | dropNewest
  | overwriteOldest
  deriving DecidableEq, Repr

/-- What RX does on a stop event of level 0 with correct timing (R4, 43 R157). -/
inductive Stop0Policy where
  | dropSilently
  | commitAnyway
  | framingFault
  deriving DecidableEq, Repr

/-- One triple of TIMING_TABLE (40 R91). -/
structure TimingEntry where
  clockFrequency : Nat
  baudRate : Nat
  cyclesPerBit : Nat
  deriving DecidableEq, Repr

/-- The configuration record `CFG` of R10 together with the other parameters of R4. -/
structure Cfg where
  /-- `CFG.dataBits`, 4 bits, 1..8. -/
  dataBits : BitVec 4
  bitOrder : BitOrder
  parityMode : ParityMode
  clockFrequency : Nat
  baudRate : Nat
  /-- `CFG.CPB`, cycles between consecutive pin writes of a frame. -/
  cpb : Nat
  timingTable : List TimingEntry
  /-- Which GPIO pin the output drives; no rule reads it (D29). -/
  pin : Nat
  /-- The port of that pin; no rule reads it (D29). -/
  port : Nat
  lineTerminator : List Byte
  /-- VERIFY: whether RX exists and is fed by TX's pin writes. -/
  verify : Bool
  tsWidth : Nat
  cpbWidth : Nat
  queueCapacity : Nat
  overflowPolicy : OverflowPolicy
  stop0Policy : Stop0Policy
  deriving DecidableEq, Repr

/-- The configuration of `State.reset`: the defaults of R4, and for the parameters R4 gives no default
the values of log entry 2 (DESIGN CHOICE: VERIFY true, the one pair the source names, pin and port 0). -/
def Cfg.default : Cfg where
  dataBits := 8
  bitOrder := .lsb
  parityMode := .none
  clockFrequency := 16000000
  baudRate := 250000
  cpb := 64
  timingTable := [⟨16000000, 250000, 64⟩]
  pin := 0
  port := 0
  lineTerminator := [0x0D, 0x0A]
  verify := true
  tsWidth := 32
  cpbWidth := 16
  queueCapacity := 16
  overflowPolicy := .dropNewest
  stop0Policy := .dropSilently

/-- FREE VALUE (log 7): what an entry of `q_mem` that nothing has written since the last power-on reset
holds (R31, V3: unspecified). The first argument is State's `epoch`, the second the entry's index. -/
opaque Config.unwrittenEntry : Nat → Nat → Byte

end Sys2Proof
end

