-- ==== Sys2Proof/Machine/Timing.lean ====
section
/-! DEFINITION. The Timing Controller as a function (40_timing_controller R90) and what makes a
configuration valid (00_scope R4, 30_encoding R71, 40 R91). -/

namespace Sys2Proof

/-- The number of data bits, as a count. -/
def Cfg.bits (c : Cfg) : Nat := c.dataBits.toNat

/-- 2^TS_WIDTH, the modulus of the cycle counter and of every timestamp (R11). -/
def Cfg.tsMod (c : Cfg) : Nat := 2 ^ c.tsWidth

/-- P of R61: 1 when a parity segment is configured, else 0. -/
def ParityMode.segments : ParityMode → Nat
  | .none => 0
  | .even => 1
  | .odd => 1

/-- N of R61, the number of segments of a frame. -/
def Cfg.segments (c : Cfg) : Nat := 1 + c.bits + c.parityMode.segments + 1

/-- `cyclesPerBit(f, b)` of R90: round(f / b), ties upward (D5). -/
def cyclesPerBit (f b : Nat) : Nat := (2 * f + b) / (2 * b)

/-- A legal CFGW[3:0]: 1..8 (R66). -/
def legalDataBits (b : BitVec 4) : Bool := decide (1 ≤ b.toNat) && decide (b.toNat ≤ 8)

/-- A legal CFGW[6:5]: code 3 is a configuration error (R66). -/
def legalParityCode (p : BitVec 2) : Bool := decide (p ≠ 3)

/-- A count of cycles that R90 lets CFG.CPB hold: at least 1, and it fits CPB_WIDTH and TS_WIDTH bits. -/
def legalCpb (cpbWidth tsWidth c : Nat) : Bool :=
  decide (1 ≤ c) && decide (c < 2 ^ cpbWidth) && decide (c < 2 ^ tsWidth)

/-- R91: every triple of TIMING_TABLE has the count R90 gives its pair. -/
def TimingEntry.sound (e : TimingEntry) : Bool :=
  decide (0 < e.clockFrequency) && decide (0 < e.baudRate) &&
    decide (e.cyclesPerBit = Sys2Proof.cyclesPerBit e.clockFrequency e.baudRate)

/-- R91: the pair is listed in TIMING_TABLE. -/
def Cfg.supports (c : Cfg) (f b : Nat) : Bool :=
  c.timingTable.any fun e => decide (e.clockFrequency = f) && decide (e.baudRate = b)

/-- Whether CPB of R90 has a legal result for the pair on this instance (R90, R91). -/
def Cfg.calibrated (c : Cfg) (f b : Nat) : Bool :=
  decide (0 < f) && decide (0 < b) && c.supports f b &&
    legalCpb c.cpbWidth c.tsWidth (Sys2Proof.cyclesPerBit f b)

/-- A valid configuration (R4, R71, R91): only such an instance exists. -/
def Cfg.valid (c : Cfg) : Bool :=
  legalDataBits c.dataBits && c.timingTable.all TimingEntry.sound &&
    c.calibrated c.clockFrequency c.baudRate &&
    decide (c.cpb = Sys2Proof.cyclesPerBit c.clockFrequency c.baudRate) &&
    decide (1 ≤ c.queueCapacity)

end Sys2Proof
end

