-- ==== Sys2Proof/Syntax.lean ====
section
/-! DEFINITION. The block's operations: one constructor for each row of the opcode table
(30_encoding R75), with the fields of the row's encoding as its operands. -/

namespace Sys2Proof

/-- `tx_seg` (10_state R16): which segment is on the pin. -/
inductive TxSeg where
  | idle
  | start
  | data
  | parity
  | stop
  deriving DecidableEq, Repr

/-- `rx_state` (10_state R22), the source's ReceiverState. -/
inductive RxState where
  | idle
  | inWord
  | parityBit
  | stopBit
  | fault
  deriving DecidableEq, Repr

/-- `diag_kind` (10_state R26). -/
inductive DiagKind where
  | none
  | timingGlitch
  | parityMismatch
  | framingError
  deriving DecidableEq, Repr

/-- Which operation the state selects for TX in a step (the dispatch of 42 R120); `idle` stands for the
two operations of `TxIdle`, which the request port tells apart. -/
inductive TxSel where
  | idle
  | hold
  | data
  | parity
  | stop
  | finish
  deriving DecidableEq, Repr

inductive Instr where
  /-- POR: power-on reset (R230). -/
  | por
  /-- TX: accept a request (R121). -/
  | tx (v : Byte)
  /-- TX.refused: a request while a frame is in flight (R129). -/
  | txRefused (v : Byte)
  /-- TXIDLE (R134); `x` are the don't-care data bits of a word with tx_valid = 0. -/
  | txidle (x : Byte)
  /-- TXHOLD (R123); `x` is the don't-care request word, here and in the four that follow. -/
  | txhold (x : BitVec 9)
  /-- TXDATA (R124). -/
  | txdata (x : BitVec 9)
  /-- TXPARITY (R125). -/
  | txparity (x : BitVec 9)
  /-- TXSTOP (R126). -/
  | txstop (x : BitVec 9)
  /-- TXEND (R127). -/
  | txend (x : BitVec 9)
  /-- EV.idle0 (R151); `ts` is the event's timestamp, here and below. -/
  | evIdle0 (ts : Nat)
  /-- EV.idle1 (R152). -/
  | evIdle1 (ts : Nat)
  /-- EV.inword (R154); `l` is the event's level, here and below. -/
  | evInword (l : Level) (ts : Nat)
  /-- EV.parity (R155). -/
  | evParity (l : Level) (ts : Nat)
  /-- EV.stop1 (R156). -/
  | evStop1 (ts : Nat)
  /-- EV.stop0 (R157). -/
  | evStop0 (ts : Nat)
  /-- EV.fault (R158). -/
  | evFault (l : Level) (ts : Nat)
  /-- RXRESET (R159). -/
  | rxreset
  /-- RXREAD (R160). -/
  | rxread
  /-- CPB (R90): the operands clockFrequency and baudRate, unbounded integers. -/
  | cpb (f b : Nat)
  /-- ENCODE (R100): the value, then CFGW[6:5], CFGW[4], CFGW[3:0]. -/
  | encode (v : Byte) (p : BitVec 2) (o : BitVec 1) (b : BitVec 4)
  /-- PRINT (R190): the payload; `x` is the row's don't-care word. -/
  | print (x : BitVec 9) (bs : List Byte)
  /-- PRINTLN (R191). -/
  | println (x : BitVec 9) (bs : List Byte)
  /-- FMT.CFGW (R66): CFGW[6:5], CFGW[4], CFGW[3:0]. -/
  | fmtCfgw (p : BitVec 2) (o : BitVec 1) (b : BitVec 4)
  /-- FMT.TXREQ (R67): tx_valid, tx_data. -/
  | fmtTxreq (e : Bool) (v : Byte)
  /-- FMT.EVT (R68): valid, level, timestamp. -/
  | fmtEvt (e : Bool) (l : Level) (ts : Nat)
  /-- FMT.RD (R76): rd_valid, rd_data. -/
  | fmtRd (e : Bool) (v : Byte)
  /-- FMT.DIAG (R69): diag_actual, diag_expected, diag_position, diag_kind. -/
  | fmtDiag (a e : Nat) (p : BitVec 4) (k : BitVec 2)
  /-- FRAME.1N (R62). In `d` the first data level in time order is the most significant bit, as in the
  row's pattern; `p` is the parity level. The same for the fifteen formats below. -/
  | frame1n (d : BitVec 1)
  /-- FRAME.1P (R62). -/
  | frame1p (d : BitVec 1) (p : Level)
  /-- FRAME.2N (R62). -/
  | frame2n (d : BitVec 2)
  /-- FRAME.2P (R62). -/
  | frame2p (d : BitVec 2) (p : Level)
  /-- FRAME.3N (R62). -/
  | frame3n (d : BitVec 3)
  /-- FRAME.3P (R62). -/
  | frame3p (d : BitVec 3) (p : Level)
  /-- FRAME.4N (R62). -/
  | frame4n (d : BitVec 4)
  /-- FRAME.4P (R62). -/
  | frame4p (d : BitVec 4) (p : Level)
  /-- FRAME.5N (R62). -/
  | frame5n (d : BitVec 5)
  /-- FRAME.5P (R62). -/
  | frame5p (d : BitVec 5) (p : Level)
  /-- FRAME.6N (R62). -/
  | frame6n (d : BitVec 6)
  /-- FRAME.6P (R62). -/
  | frame6p (d : BitVec 6) (p : Level)
  /-- FRAME.7N (R62). -/
  | frame7n (d : BitVec 7)
  /-- FRAME.7P (R62). -/
  | frame7p (d : BitVec 7) (p : Level)
  /-- FRAME.8N (R62). -/
  | frame8n (d : BitVec 8)
  /-- FRAME.8P (R62). -/
  | frame8p (d : BitVec 8) (p : Level)
  deriving DecidableEq, Repr

end Sys2Proof
end

