-- ==== Sys2Proof/WellFormed.lean ====
section
/-! DEFINITION. Which instructions are well formed: the operands that fit the fields of the row's
encoding and are none of the illegal values of 30_encoding R66 and R71. -/

namespace Sys2Proof

/-- Well-formedness on an instance with these widths of CPB and of timestamps. -/
def Instr.wellFormed (cpbWidth tsWidth : Nat) : Instr → Bool
  | .por => true
  | .tx _ => true
  | .txRefused _ => true
  | .txidle _ => true
  | .txhold _ => true
  | .txdata _ => true
  | .txparity _ => true
  | .txstop _ => true
  | .txend _ => true
  | .evIdle0 ts => decide (ts < 2 ^ tsWidth)
  | .evIdle1 ts => decide (ts < 2 ^ tsWidth)
  | .evInword _ ts => decide (ts < 2 ^ tsWidth)
  | .evParity _ ts => decide (ts < 2 ^ tsWidth)
  | .evStop1 ts => decide (ts < 2 ^ tsWidth)
  | .evStop0 ts => decide (ts < 2 ^ tsWidth)
  | .evFault _ ts => decide (ts < 2 ^ tsWidth)
  | .rxreset => true
  | .rxread => true
  | .cpb f b => decide (0 < f) && decide (0 < b) && legalCpb cpbWidth tsWidth (cyclesPerBit f b)
  | .encode _ p _ b => legalParityCode p && legalDataBits b
  | .print _ _ => true
  | .println _ _ => true
  | .fmtCfgw p _ b => legalParityCode p && legalDataBits b
  | .fmtTxreq _ _ => true
  | .fmtEvt _ _ ts => decide (ts < 2 ^ tsWidth)
  | .fmtRd _ _ => true
  | .fmtDiag a e _ _ => decide (a < 2 ^ tsWidth) && decide (e < 2 ^ tsWidth)
  | .frame1n _ => true
  | .frame1p _ _ => true
  | .frame2n _ => true
  | .frame2p _ _ => true
  | .frame3n _ => true
  | .frame3p _ _ => true
  | .frame4n _ => true
  | .frame4p _ _ => true
  | .frame5n _ => true
  | .frame5p _ _ => true
  | .frame6n _ => true
  | .frame6p _ _ => true
  | .frame7n _ => true
  | .frame7p _ _ => true
  | .frame8n _ => true
  | .frame8p _ _ => true

end Sys2Proof
end

