-- ==== Sys2Proof/Decode.lean ====
section
/-! DEFINITION. The decoder and the encoder (30_encoding R60 to R76). A row of the opcode table is found
by the port or format its word stands on, by the word's bits and, where rows share a word, by the state
the row's condition names; so an encoded instruction is a `Code`, and decoding takes a `Select` (log 6). -/

namespace Sys2Proof

/-! ## Numbers of the enumerations (R66, R69, R70) -/

def BitOrder.code : BitOrder → BitVec 1
  | .lsb => 0
  | .msb => 1

def BitOrder.ofCode (o : BitVec 1) : BitOrder := if o = 0 then .lsb else .msb

def ParityMode.code : ParityMode → BitVec 2
  | .none => 0
  | .even => 1
  | .odd => 2

/-- The parity mode of a legal code; code 3 is refused before this is asked (R66). -/
def ParityMode.ofCode (p : BitVec 2) : ParityMode :=
  if p = 0 then .none else if p = 1 then .even else .odd

def DiagKind.code : DiagKind → BitVec 2
  | .none => 0
  | .timingGlitch => 1
  | .parityMismatch => 2
  | .framingError => 3

def TxSeg.code : TxSeg → BitVec 3
  | .idle => 0
  | .start => 1
  | .data => 2
  | .parity => 3
  | .stop => 4

def RxState.code : RxState → BitVec 3
  | .idle => 0
  | .inWord => 1
  | .parityBit => 2
  | .stopBit => 3
  | .fault => 4

/-! ## Words of the ports and registers -/

/-- A valid bit over a byte: TXREQ (R67) and RD (R76). -/
def pack9 (e : Bool) (v : Byte) : BitVec 9 := BitVec.ofBool e ++ v

/-- The valid bit of TXREQ and RD. -/
def valid9 (w : BitVec 9) : Bool := w.getLsbD 8

/-- The byte of TXREQ and RD. -/
def byte9 (w : BitVec 9) : Byte := w.setWidth 8

/-- EVT (R68): valid, level, timestamp, from the top. -/
def packEvt (tsWidth : Nat) (e : Bool) (l : Level) (ts : Nat) : Nat :=
  (levelNat e * 2 + levelNat l) * 2 ^ tsWidth + ts % 2 ^ tsWidth

def evtValid (tsWidth w : Nat) : Bool := decide (w / 2 ^ tsWidth / 2 % 2 = 1)

def evtLevel (tsWidth w : Nat) : Level := decide (w / 2 ^ tsWidth % 2 = 1)

def evtTs (tsWidth w : Nat) : Nat := w % 2 ^ tsWidth

/-- DIAG (R69): actual, expected, position, kind, from the top. -/
def packDiag (tsWidth : Nat) (actual expected : Nat) (p : BitVec 4) (k : BitVec 2) : Nat :=
  ((actual * 2 ^ tsWidth + expected) * 16 + p.toNat) * 4 + k.toNat

/-- CFGW (R66): bit 7 is reserved and 0. -/
def packCfgw (p : BitVec 2) (o : BitVec 1) (b : BitVec 4) : Nat :=
  (p.toNat * 2 + o.toNat) * 16 + b.toNat

/-- A frame's word without parity, in time order from the top: start 0, data, stop 1 (R62). -/
def packFrame {n : Nat} (d : BitVec n) : Nat := d.toNat * 2 + 1

/-- A frame's word with parity (R62). -/
def packFrameP {n : Nat} (d : BitVec n) (p : Level) : Nat := (d.toNat * 2 + levelNat p) * 2 + 1

/-! ## Encoded instructions -/

/-- The port, register or format a word stands on (the table's column of formats, with the two strobes
and the clock-selected operations of R75 told apart). -/
inductive Format where
  /-- The reset input. -/
  | reset
  /-- TXREQ: the operation its request selects (TX, TX.refused, TXIDLE). -/
  | request
  /-- TXREQ: the operation the clock selects whatever the request (TXHOLD to TXEND). -/
  | clock
  /-- EVT: the operation an event selects. -/
  | event
  /-- The strobe rx_reset. -/
  | resetStrobe
  /-- The strobe rx_read. -/
  | readStrobe
  /-- CONFIG: CFG.CPB, with the two unbounded operands of R90 as payload. -/
  | config
  /-- FUNCTION: ENCODE. -/
  | function
  /-- PSEUDO: PRINT, with the bytes as payload. -/
  | print
  /-- PSEUDO: PRINTLN. -/
  | println
  /-- The layout of CFGW. -/
  | cfgw
  /-- The layout of TXREQ. -/
  | txreq
  /-- The layout of EVT. -/
  | evt
  /-- The layout of RD. -/
  | rd
  /-- The layout of DIAG. -/
  | diag
  /-- FRAME with `n` data levels, with or without a parity level. -/
  | frame (n : Nat) (parity : Bool)
  deriving DecidableEq, Repr

/-- How many bits a word of the format has. -/
def Format.width (cpbWidth tsWidth : Nat) : Format → Nat
  | .reset => 1
  | .request => 9
  | .clock => 9
  | .event => tsWidth + 2
  | .resetStrobe => 1
  | .readStrobe => 1
  | .config => cpbWidth
  | .function => 16
  | .print => 9
  | .println => 9
  | .cfgw => 8
  | .txreq => 9
  | .evt => tsWidth + 2
  | .rd => 9
  | .diag => 6 + 2 * tsWidth
  | .frame n parity => n + 2 + if parity then 1 else 0

/-- An encoded instruction: the format, the word's bits as a number (bit 0 the least significant), and
the operands that have no bits in the table (the integers of CPB, the bytes of PRINT and PRINTLN). -/
structure Code where
  fmt : Format
  word : Nat
  payload : List Nat := []
  deriving DecidableEq, Repr

/-- What the conditions of the table's rows test: TX's and RX's state, and the instance's widths. -/
structure Select where
  tx : TxSel
  rx : RxState
  cpbWidth : Nat
  tsWidth : Nat
  deriving DecidableEq, Repr

/-- The selecting state right after reset, with the widths the table is written for (R75). -/
def Select.reset : Select := ⟨.idle, .idle, 16, 32⟩

/-- Why a code is no instruction. -/
inductive Reject where
  /-- The word has a bit above its format's width. -/
  | tooWide
  /-- A fixed bit of the row's pattern differs. -/
  | pattern
  /-- A value R66 and R71 call a configuration error. -/
  | reserved
  /-- The operands beside the word are missing, too many or out of range. -/
  | payload
  /-- The word carries no event (ev_valid = 0). -/
  | noEvent
  /-- No row of the format is selected in this state. -/
  | notSelected
  /-- There is no such frame format (R62 has sixteen). -/
  | noSuchFormat
  deriving DecidableEq, Repr

/-! ## Decoding -/

/-- The row the request word asks for, if any (R120, R129, R134). -/
def decodeRequest (t : TxSel) (w : BitVec 9) : Option Instr :=
  if valid9 w then
    if t = .idle then some (.tx (byte9 w)) else some (.txRefused (byte9 w))
  else
    if t = .idle then some (.txidle (byte9 w)) else none

/-- The row the clock selects while a frame is in flight (R120). -/
def decodeClock (t : TxSel) (w : BitVec 9) : Option Instr :=
  match t with
  | .idle => none
  | .hold => some (.txhold w)
  | .data => some (.txdata w)
  | .parity => some (.txparity w)
  | .stop => some (.txstop w)
  | .finish => some (.txend w)

/-- The row an event selects (R150); none when the word carries no event. -/
def decodeEvent (tsWidth : Nat) (r : RxState) (w : Nat) : Option Instr :=
  let l := evtLevel tsWidth w
  let ts := evtTs tsWidth w
  if evtValid tsWidth w then
    match r with
    | .idle => some (if l then .evIdle1 ts else .evIdle0 ts)
    | .inWord => some (.evInword l ts)
    | .parityBit => some (.evParity l ts)
    | .stopBit => some (if l then .evStop1 ts else .evStop0 ts)
    | .fault => some (.evFault l ts)
  else none

/-- The configuration fields of a word's low byte, if they are legal (R66, R71). -/
def decodeCfgw (w : Nat) : Except Reject (BitVec 2 × BitVec 1 × BitVec 4) :=
  let p := BitVec.ofNat 2 (w / 32)
  let o := BitVec.ofNat 1 (w / 16)
  let b := BitVec.ofNat 4 w
  if w / 128 % 2 = 1 then .error .reserved
  else if legalParityCode p && legalDataBits b then .ok (p, o, b) else .error .reserved

/-- The frame of a word whose start and stop bits are right (R62). -/
def frameInstr (n : Nat) (parity : Bool) (w : Nat) : Except Reject Instr :=
  let p := decide (w / 2 % 2 = 1)
  match n, parity with
  | 1, false => .ok (.frame1n (BitVec.ofNat 1 (w / 2)))
  | 1, true => .ok (.frame1p (BitVec.ofNat 1 (w / 4)) p)
  | 2, false => .ok (.frame2n (BitVec.ofNat 2 (w / 2)))
  | 2, true => .ok (.frame2p (BitVec.ofNat 2 (w / 4)) p)
  | 3, false => .ok (.frame3n (BitVec.ofNat 3 (w / 2)))
  | 3, true => .ok (.frame3p (BitVec.ofNat 3 (w / 4)) p)
  | 4, false => .ok (.frame4n (BitVec.ofNat 4 (w / 2)))
  | 4, true => .ok (.frame4p (BitVec.ofNat 4 (w / 4)) p)
  | 5, false => .ok (.frame5n (BitVec.ofNat 5 (w / 2)))
  | 5, true => .ok (.frame5p (BitVec.ofNat 5 (w / 4)) p)
  | 6, false => .ok (.frame6n (BitVec.ofNat 6 (w / 2)))
  | 6, true => .ok (.frame6p (BitVec.ofNat 6 (w / 4)) p)
  | 7, false => .ok (.frame7n (BitVec.ofNat 7 (w / 2)))
  | 7, true => .ok (.frame7p (BitVec.ofNat 7 (w / 4)) p)
  | 8, false => .ok (.frame8n (BitVec.ofNat 8 (w / 2)))
  | 8, true => .ok (.frame8p (BitVec.ofNat 8 (w / 4)) p)
  | _, _ => .error .noSuchFormat

/-- The frame of a word: its top bit is the start level 0 and its low bit the stop level 1. -/
def decodeFrame (n : Nat) (parity : Bool) (w : Nat) : Except Reject Instr :=
  if w / 2 ^ (n + 1 + if parity then 1 else 0) % 2 = 1 ∨ w % 2 = 0 then .error .pattern
  else frameInstr n parity w

/-- A strobe: the row is the bit at 1. -/
def decodeStrobe (i : Instr) (w : Nat) : Except Reject Instr :=
  if w = 1 then .ok i else .error .pattern

/-- CPB: the payload is the pair, the word the count R90 gives it. -/
def decodeConfig (sel : Select) (w : Nat) : List Nat → Except Reject Instr
  | [f, b] =>
    if 0 < f ∧ 0 < b then
      if w = cyclesPerBit f b ∧ legalCpb sel.cpbWidth sel.tsWidth w then .ok (.cpb f b)
      else .error .reserved
    else .error .reserved
  | _ => .error .payload

/-- A byte list from a payload. -/
def payloadBytes (ns : List Nat) : Option (List Byte) :=
  if ns.all fun n => decide (n < 256) then some (ns.map (BitVec.ofNat 8)) else none

/-- The instruction of a word of a format that has no payload. -/
def decodeWord (sel : Select) (fmt : Format) (w : Nat) : Except Reject Instr :=
  match fmt with
  | .reset => decodeStrobe .por w
  | .request => (decodeRequest sel.tx (BitVec.ofNat 9 w)).elim (.error .notSelected) .ok
  | .clock => (decodeClock sel.tx (BitVec.ofNat 9 w)).elim (.error .notSelected) .ok
  | .event => (decodeEvent sel.tsWidth sel.rx w).elim (.error .noEvent) .ok
  | .resetStrobe => decodeStrobe .rxreset w
  | .readStrobe => decodeStrobe .rxread w
  | .function =>
    match decodeCfgw (w % 256) with
    | .ok (p, o, b) => .ok (.encode (BitVec.ofNat 8 (w / 256)) p o b)
    | .error e => .error e
  | .cfgw =>
    match decodeCfgw w with
    | .ok (p, o, b) => .ok (.fmtCfgw p o b)
    | .error e => .error e
  | .txreq => .ok (.fmtTxreq (valid9 (BitVec.ofNat 9 w)) (byte9 (BitVec.ofNat 9 w)))
  | .evt => .ok (.fmtEvt (evtValid sel.tsWidth w) (evtLevel sel.tsWidth w) (evtTs sel.tsWidth w))
  | .rd => .ok (.fmtRd (valid9 (BitVec.ofNat 9 w)) (byte9 (BitVec.ofNat 9 w)))
  | .diag =>
    .ok (.fmtDiag (w / 64 / 2 ^ sel.tsWidth) (w / 64 % 2 ^ sel.tsWidth) (BitVec.ofNat 4 (w / 4))
      (BitVec.ofNat 2 w))
  | .frame n parity => decodeFrame n parity w
  | .config => .error .payload
  | .print => .error .payload
  | .println => .error .payload

/-- The decoder: total on any format, word and payload. -/
def decode (sel : Select) (c : Code) : Except Reject Instr :=
  if 2 ^ c.fmt.width sel.cpbWidth sel.tsWidth ≤ c.word then .error .tooWide
  else
    match c.fmt with
    | .config => decodeConfig sel c.word c.payload
    | .print => (payloadBytes c.payload).elim (.error .payload) fun bs => .ok (.print (BitVec.ofNat 9 c.word) bs)
    | .println => (payloadBytes c.payload).elim (.error .payload) fun bs => .ok (.println (BitVec.ofNat 9 c.word) bs)
    | fmt => if c.payload = [] then decodeWord sel fmt c.word else .error .payload

/-! ## Encoding -/

/-- The encoder: the format, the word and the payload of an instruction, on an instance whose timestamps
have `tsWidth` bits. -/
def encode (tsWidth : Nat) : Instr → Code
  | .por => ⟨.reset, 1, []⟩
  | .tx v => ⟨.request, (pack9 true v).toNat, []⟩
  | .txRefused v => ⟨.request, (pack9 true v).toNat, []⟩
  | .txidle x => ⟨.request, (pack9 false x).toNat, []⟩
  | .txhold x => ⟨.clock, x.toNat, []⟩
  | .txdata x => ⟨.clock, x.toNat, []⟩
  | .txparity x => ⟨.clock, x.toNat, []⟩
  | .txstop x => ⟨.clock, x.toNat, []⟩
  | .txend x => ⟨.clock, x.toNat, []⟩
  | .evIdle0 ts => ⟨.event, packEvt tsWidth true false ts, []⟩
  | .evIdle1 ts => ⟨.event, packEvt tsWidth true true ts, []⟩
  | .evInword l ts => ⟨.event, packEvt tsWidth true l ts, []⟩
  | .evParity l ts => ⟨.event, packEvt tsWidth true l ts, []⟩
  | .evStop1 ts => ⟨.event, packEvt tsWidth true true ts, []⟩
  | .evStop0 ts => ⟨.event, packEvt tsWidth true false ts, []⟩
  | .evFault l ts => ⟨.event, packEvt tsWidth true l ts, []⟩
  | .rxreset => ⟨.resetStrobe, 1, []⟩
  | .rxread => ⟨.readStrobe, 1, []⟩
  | .cpb f b => ⟨.config, cyclesPerBit f b, [f, b]⟩
  | .encode v p o b => ⟨.function, v.toNat * 256 + packCfgw p o b, []⟩
  | .print x bs => ⟨.print, x.toNat, bs.map BitVec.toNat⟩
  | .println x bs => ⟨.println, x.toNat, bs.map BitVec.toNat⟩
  | .fmtCfgw p o b => ⟨.cfgw, packCfgw p o b, []⟩
  | .fmtTxreq e v => ⟨.txreq, (pack9 e v).toNat, []⟩
  | .fmtEvt e l ts => ⟨.evt, packEvt tsWidth e l ts, []⟩
  | .fmtRd e v => ⟨.rd, (pack9 e v).toNat, []⟩
  | .fmtDiag a e p k => ⟨.diag, packDiag tsWidth a e p k, []⟩
  | .frame1n d => ⟨.frame 1 false, packFrame d, []⟩
  | .frame1p d p => ⟨.frame 1 true, packFrameP d p, []⟩
  | .frame2n d => ⟨.frame 2 false, packFrame d, []⟩
  | .frame2p d p => ⟨.frame 2 true, packFrameP d p, []⟩
  | .frame3n d => ⟨.frame 3 false, packFrame d, []⟩
  | .frame3p d p => ⟨.frame 3 true, packFrameP d p, []⟩
  | .frame4n d => ⟨.frame 4 false, packFrame d, []⟩
  | .frame4p d p => ⟨.frame 4 true, packFrameP d p, []⟩
  | .frame5n d => ⟨.frame 5 false, packFrame d, []⟩
  | .frame5p d p => ⟨.frame 5 true, packFrameP d p, []⟩
  | .frame6n d => ⟨.frame 6 false, packFrame d, []⟩
  | .frame6p d p => ⟨.frame 6 true, packFrameP d p, []⟩
  | .frame7n d => ⟨.frame 7 false, packFrame d, []⟩
  | .frame7p d p => ⟨.frame 7 true, packFrameP d p, []⟩
  | .frame8n d => ⟨.frame 8 false, packFrame d, []⟩
  | .frame8p d p => ⟨.frame 8 true, packFrameP d p, []⟩

/-- The state in which a row's condition lets its word be read as this instruction (the table's column
of conditions); true for rows whose word stands on a format of its own. -/
def Instr.selectedBy (sel : Select) : Instr → Bool
  | .tx _ => decide (sel.tx = .idle)
  | .txRefused _ => decide (sel.tx ≠ .idle)
  | .txidle _ => decide (sel.tx = .idle)
  | .txhold _ => decide (sel.tx = .hold)
  | .txdata _ => decide (sel.tx = .data)
  | .txparity _ => decide (sel.tx = .parity)
  | .txstop _ => decide (sel.tx = .stop)
  | .txend _ => decide (sel.tx = .finish)
  | .evIdle0 _ => decide (sel.rx = .idle)
  | .evIdle1 _ => decide (sel.rx = .idle)
  | .evInword _ _ => decide (sel.rx = .inWord)
  | .evParity _ _ => decide (sel.rx = .parityBit)
  | .evStop1 _ => decide (sel.rx = .stopBit)
  | .evStop0 _ => decide (sel.rx = .stopBit)
  | .evFault _ _ => decide (sel.rx = .fault)
  | .por => true
  | .rxreset => true
  | .rxread => true
  | .cpb _ _ => true
  | .encode _ _ _ _ => true
  | .print _ _ => true
  | .println _ _ => true
  | .fmtCfgw _ _ _ => true
  | .fmtTxreq _ _ => true
  | .fmtEvt _ _ _ => true
  | .fmtRd _ _ => true
  | .fmtDiag _ _ _ _ => true
  | .frame1n _ => true
  | .frame1p _ _ => true
  | .frame2n _ => true
  | .frame2p _ _ => true
  | .frame3n _ => true
  | .frame3p _ _ => true
  | .frame4n _ => true
  | .frame4p _ _ => true
  | .frame5n _ => true
  | .frame5p _ _ => true
  | .frame6n _ => true
  | .frame6p _ _ => true
  | .frame7n _ => true
  | .frame7p _ _ => true
  | .frame8n _ => true
  | .frame8p _ _ => true

/-! ## Bare words of the opcode table -/

/-- The formats a bare word of `nbits` bits (whole bytes) is tried on, in order: rows of that many bytes
whose pattern has fixed bits first (log 6). -/
def bareFormats (nbits : Nat) : List Format :=
  if nbits = 8 then [.frame 5 true, .frame 6 false, .cfgw]
  else if nbits = 16 then [.function, .request, .frame 8 true]
  else if nbits = 40 then [.event, .evt]
  else if nbits = 72 then [.diag]
  else []

/-- The first format of the list that accepts the word. -/
def firstAccepted (sel : Select) (w : Nat) : List Format → Option Instr
  | [] => none
  | f :: fs =>
    match decode sel ⟨f, w, []⟩ with
    | .ok i => some i
    | .error _ => firstAccepted sel w fs

/-- The instruction the decoder reads from a bare word of the table, in the state right after reset. -/
def decodeTableWord (nbits w : Nat) : Option Instr :=
  firstAccepted Select.reset w (bareFormats nbits)

end Sys2Proof
end

