-- ==== Sys2Proof/Machine/State.lean ====
section
/-! DEFINITION. The state of the machine: everything 10_state.md gives it (R10 to R31), the ports of
R20, R21 and R29, and the model's own fields (`running`, `epoch`, `obs`, `host`); plain data. -/

namespace Sys2Proof.Machine

/-- A pin-level-set event (R20, R68). -/
structure Event where
  level : Level
  ts : Nat
  deriving DecidableEq, Repr

/-- The answer to RXREAD (R29, R76). -/
structure Answer where
  valid : Bool
  data : Byte
  deriving DecidableEq, Repr

/-- The input ports in one step (R21, R29, R230). -/
structure Ports where
  /-- The reset input. -/
  por : Bool
  /-- TXREQ: tx_valid over tx_data (R67). -/
  txreq : BitVec 9
  /-- rx_read (R76). -/
  rxRead : Bool
  /-- rx_reset (R76). -/
  rxReset : Bool
  /-- The word a test bench puts on the event port in place of the wired stream (R212); none when the
  port is wired to TX's writes (R29). -/
  evt : Option Nat
  deriving DecidableEq, Repr

/-- No request on any port. -/
def Ports.quiet : Ports := ⟨false, 0, false, false, none⟩

/-- The output ports after a step (R20, R29): no event when wr_valid = 0; no answer when nothing was
read in the step. -/
structure Outs where
  wr : Option Event
  rd : Option Answer
  deriving DecidableEq, Repr

def Outs.quiet : Outs := ⟨none, none⟩

/-- What an observer last read (log 10, log 13): the level list of ENCODE, the RD word, the DIAG word. -/
structure Observed where
  levels : List Level
  rd : BitVec 9
  diag : Nat
  deriving DecidableEq, Repr

/-- Transmitter state (R12 to R18). -/
structure Tx where
  pin : Level
  shift : Byte
  rem : BitVec 4
  par : Bool
  seg : TxSeg
  cnt : Nat
  excl : Bool
  deriving DecidableEq, Repr

/-- The diagnostic register (R26). -/
structure Diag where
  kind : DiagKind
  expected : Nat
  actual : Nat
  position : BitVec 4
  deriving DecidableEq, Repr

def Diag.clear : Diag := ⟨.none, 0, 0, 0⟩

/-- Receiver state (R22 to R26). -/
structure Rx where
  state : RxState
  acc : Byte
  rem : BitVec 4
  prevTs : Nat
  diag : Diag
  deriving DecidableEq, Repr

/-- The receiver after RXRESET or POR (R31). -/
def Rx.clear : Rx := ⟨.idle, 0, 0, 0, Diag.clear⟩

/-- A memory: the bytes that have been written, as cells of strictly rising addresses. -/
abbrev Memory := List Host.Cell

/-- The canonical form: addresses strictly rise. An unlisted address has no value of its own (its read
is the free value of log 7), so no listed cell equals it. -/
def Memory.wf : Memory → Bool
  | [] => true
  | [_] => true
  | a :: b :: m => decide (a.1 < b.1) && Memory.wf (b :: m)

/-- The decoded output queue (R27, R28). -/
structure Queue where
  mem : Memory
  head : Nat
  count : Nat
  overflow : Bool
  deriving DecidableEq, Repr

/-- A line of the host's or the bench's program (30_encoding R73, log 5). -/
inductive Line where
  /-- `POR`. -/
  | por
  /-- `TX v`, the blocking call: hold the request until it is accepted, then wait as `await`. -/
  | tx (v : Byte)
  /-- The rest of `TX v`: no request until tx_ready is 1 again; the next line starts in that step. -/
  | await
  /-- `WAIT n`: n steps with no request on any port. -/
  | wait (n : Nat)
  /-- `EV l @t`: one event on the event port, the wired stream disconnected. -/
  | ev (l : Level) (t : Nat)
  /-- n steps with the event port disconnected from TX and no event on it. -/
  | hold (n : Nat)
  /-- `RXREAD`. -/
  | rxRead
  /-- `RXRESET`. -/
  | rxReset
  /-- One step with these values on the ports. -/
  | drive (p : Ports)
  /-- An encoded instruction. -/
  | code (c : Code)
  deriving DecidableEq, Repr

structure State where
  /-- The instance's constants (R10). -/
  cfg : Cfg
  /-- MODEL (log 3): false until the first clock cycle, while the configuration can be presented. -/
  running : Bool
  /-- The cycle counter (R11). -/
  cyc : Nat
  tx : Tx
  rx : Rx
  queue : Queue
  /-- MODEL (log 7): which power-on epoch the free value of an unwritten queue entry belongs to. -/
  epoch : Nat
  /-- The input ports for the step to come. -/
  inp : Ports
  /-- The output ports of the last step. -/
  out : Outs
  /-- MODEL (log 10, log 13): what an observer last read. -/
  obs : Observed
  /-- MODEL (log 5): the pending lines of the host and the bench. -/
  host : List Line
  deriving DecidableEq, Repr

/-- Reasons the machine stops with a fault. -/
inductive Fault where
  /-- Raised by RXREAD and by a commit: an index of `q_mem` outside 0..QUEUE_CAPACITY-1, which R40 says
  does not exist. Safe: no reachable state has such an index. -/
  | queueIndexOutOfRange
  deriving DecidableEq, Repr

/-- Reasons the machine refuses to go on. -/
inductive Refusal where
  /-- Raised by exec for an instruction without a meaning. Safe. -/
  | notModelled (mnemonic : String)
  /-- Raised by step, CPB, ENCODE and FMT.CFGW: a configuration R71, R91 and R210 call an error; no such
  instance exists and a model refuses it. Safe. -/
  | configurationError
  /-- Raised by step: the line's word is no encoding of its format. Safe. -/
  | undecodable (r : Reject)
  deriving DecidableEq, Repr

/-- What a step or a meaning answers. -/
abbrev Result := Host.Outcome State Fault Refusal

/-- The state right after power-on reset (R31, R230), on the instance of log 2. -/
def State.reset : State where
  cfg := Cfg.default
  running := false
  cyc := 0
  tx := ⟨true, 0, 0, false, .idle, 0, false⟩
  rx := Rx.clear
  queue := ⟨[], 0, 0, false⟩
  epoch := 0
  inp := Ports.quiet
  out := Outs.quiet
  obs := ⟨[], 0, 0⟩
  host := []

end Sys2Proof.Machine
end

