-- ==== Sys2Proof/Machine/Operands.lean ====
section
/-! DEFINITION. How operands are formed: the word of a request (30_encoding R67), its alignment (20_memory
R46), the levels of a frame (41_word_encoder), the receiver's fold and realignment (43 R154, R162), and the
word whose levels a frame carries. -/

namespace Sys2Proof.Machine

/-- The exclusive or of all bits (R5). -/
def xorReduce (v : Byte) : Bool :=
  v.getLsbD 0 ^^ v.getLsbD 1 ^^ v.getLsbD 2 ^^ v.getLsbD 3 ^^
    v.getLsbD 4 ^^ v.getLsbD 5 ^^ v.getLsbD 6 ^^ v.getLsbD 7

/-- The low `n` bits of a request's data; the others are ignored by every rule (R67, D8). -/
def wordOf (n : Nat) (v : Byte) : Byte := v &&& BitVec.ofNat 8 (2 ^ n - 1)

/-- The word as it is loaded into `tx_shift` (R46, R121). -/
def alignTx (order : BitOrder) (n : Nat) (w : Byte) : Byte :=
  match order with
  | .lsb => w
  | .msb => w <<< (8 - n)

/-- The level the shift register emits next (R124). -/
def shiftOut (order : BitOrder) (r : Byte) : Level :=
  match order with
  | .lsb => r.getLsbD 0
  | .msb => r.getLsbD 7

/-- The shift register after one data segment (R124). -/
def shiftTx (order : BitOrder) (r : Byte) : Byte :=
  match order with
  | .lsb => r >>> 1
  | .msb => r <<< 1

/-- `dataLevel(v, n, order, i)` (R102, R103). -/
def dataLevel (v : Byte) (n : Nat) (order : BitOrder) (i : Nat) : Level :=
  match order with
  | .lsb => v.getLsbD i
  | .msb => v.getLsbD (n - 1 - i)

/-- `parityLevel(v, n, pm)` (R104), also the value of `tx_par` at accept (R121). -/
def parityLevel (v : Byte) (n : Nat) (pm : ParityMode) : Level :=
  xorReduce (wordOf n v) ^^ decide (pm = .odd)

/-- `frameLevels(v, n, order, pm)` (R100). -/
def frameLevels (v : Byte) (n : Nat) (order : BitOrder) (pm : ParityMode) : List Level :=
  [false] ++ (List.range n).map (dataLevel v n order) ++
    (if pm = .none then [] else [parityLevel v n pm]) ++ [true]

/-- The frame of a value on an instance. -/
def frameOf (c : Cfg) (v : Byte) : List Level := frameLevels v c.bits c.bitOrder c.parityMode

/-- One event folded into the accumulator (R154). -/
def foldRx (order : BitOrder) (acc : Byte) (l : Level) : Byte :=
  match order with
  | .lsb => (acc >>> 1) ||| (BitVec.ofNat 8 (levelNat l) <<< 7)
  | .msb => (acc <<< 1) ||| BitVec.ofNat 8 (levelNat l)

/-- `decoded(acc)` (R162). -/
def decoded (order : BitOrder) (n : Nat) (acc : Byte) : Byte :=
  match order with
  | .lsb => acc >>> (8 - n)
  | .msb => acc

/-- The data levels of a frame's word in time order: the most significant bit is the first (R62). -/
def levelsOf {n : Nat} (d : BitVec n) : List Level := (List.range n).map fun i => d.getMsbD i

/-- The value whose data levels are these, in time order (the inverse of R102 and R103). -/
def valueOfLevels (order : BitOrder) (ls : List Level) : Byte :=
  match order with
  | .lsb => ls.foldr (fun l v => (v <<< 1) ||| BitVec.ofNat 8 (levelNat l)) 0
  | .msb => ls.foldl (fun v l => (v <<< 1) ||| BitVec.ofNat 8 (levelNat l)) 0

end Sys2Proof.Machine
end

