-- ==== Sys2Proof/Machine/Flags.lean ====
section
/-! DEFINITION. The 1-bit values a host can read (10_state R30), the selection of the step's operation
(42 R120), and the receiver's checks (43 R153, R155). The block has no condition codes. -/

namespace Sys2Proof.Machine

/-- `tx_ready` (R19). -/
def State.txReady (s : State) : Bool := decide (s.tx.seg = .idle)

/-- The queue is empty (R30). -/
def State.queueEmpty (s : State) : Bool := decide (s.queue.count = 0)

/-- The queue is full (R30). -/
def State.queueFull (s : State) : Bool := decide (s.queue.count = s.cfg.queueCapacity)

/-- The host's effective preemption enable, `host_pe and not excl` (R128); `hostPe` is the host's own. -/
def State.preemptible (hostPe : Bool) (s : State) : Bool := hostPe && !s.tx.excl

/-- What a boundary after a start or data segment selects (R120). -/
def State.boundarySel (s : State) : TxSel :=
  if s.tx.rem ≠ 0 then .data else if s.cfg.parityMode ≠ .none then .parity else .stop

/-- The operation the state selects for TX (R120). -/
def State.txSel (s : State) : TxSel :=
  match s.tx.seg with
  | .idle => .idle
  | .start => if s.tx.cnt ≠ 0 then .hold else s.boundarySel
  | .data => if s.tx.cnt ≠ 0 then .hold else s.boundarySel
  | .parity => if s.tx.cnt ≠ 0 then .hold else .stop
  | .stop => if s.tx.cnt ≠ 0 then .hold else .finish

/-- What the conditions of the table's rows test. -/
def State.select (s : State) : Select := ⟨s.txSel, s.rx.state, s.cfg.cpbWidth, s.cfg.tsWidth⟩

/-- RX exists and is in this state (R150). -/
def State.rxIn (s : State) (r : RxState) : Bool := s.cfg.verify && decide (s.rx.state = r)

/-- `elapsed` of R153, modulo 2^TS_WIDTH. -/
def State.elapsed (s : State) (ts : Nat) : Nat :=
  (ts + s.cfg.tsMod - s.rx.prevTs % s.cfg.tsMod) % s.cfg.tsMod

/-- `timing_ok` of R153. -/
def State.onTime (s : State) (ts : Nat) : Bool := decide (s.elapsed ts = s.cfg.cpb)

/-- The parity level RX requires, `exp` of R155. -/
def State.expectedParity (s : State) : Level :=
  if s.cfg.parityMode = .even then xorReduce s.rx.acc else !xorReduce s.rx.acc

/-- The position of the stop event, dataBits + P (R156, R157, R201). -/
def State.stopPosition (s : State) : BitVec 4 :=
  s.cfg.dataBits + if s.cfg.parityMode ≠ .none then 1 else 0

end Sys2Proof.Machine
end

