-- ==== Sys2Proof/Machine/Ops.lean ====
section
/-! DEFINITION. The operations the meanings share: the queue's memory (20_memory R40 to R43), the pin write
(42 R122), the load of a frame (R121), the timing check, Fault entry and exit (60 R204, R206), and the lines
of the host and the bench (30_encoding R73, 60 R212). -/

namespace Sys2Proof.Machine

/-- Go on from a result that has a next state. -/
def andThen (o : Result) (f : State → Result) : Result :=
  match o with
  | .next s => f s
  | .fault r => .fault r
  | .refused r => .refused r

/-! ## Memory -/

/-- What is listed at an address, if anything. -/
def Memory.read (a : Nat) : Memory → Option Byte
  | [] => none
  | (b, v) :: m => if a = b then some v else Memory.read a m

/-- A write; the cells stay in strictly rising order. -/
def Memory.write (a : Nat) (v : Byte) : Memory → Memory
  | [] => [(a, v)]
  | (b, w) :: m =>
    if a < b then (a, v) :: (b, w) :: m
    else if a = b then (a, v) :: m
    else (b, w) :: Memory.write a v m

/-- `q_mem[i]`: what was written there last, else the free value (R31, V3, log 7). -/
def State.entry (s : State) (i : Nat) : Byte :=
  (Memory.read i s.queue.mem).getD (Config.unwrittenEntry s.epoch i)

/-! ## The queue -/

/-- `q_tail`, the index of the next free entry (R27). -/
def State.tail (s : State) : Nat := (s.queue.head + s.queue.count) % s.cfg.queueCapacity

/-- The valid entries, oldest first (R41). -/
def State.queued (s : State) : List Byte :=
  (List.range s.queue.count).map fun i => s.entry ((s.queue.head + i) % s.cfg.queueCapacity)

/-- `QueuePush(v)` (R43). -/
def State.push (v : Byte) (s : State) : Result :=
  if s.queue.count < s.cfg.queueCapacity then
    .next { s with queue := { s.queue with mem := s.queue.mem.write s.tail v, count := s.queue.count + 1 } }
  else
    match s.cfg.overflowPolicy with
    | .dropNewest => .next { s with queue := { s.queue with overflow := true } }
    | .overwriteOldest =>
      if s.queue.head < s.cfg.queueCapacity then
        .next { s with queue := { s.queue with
          mem := s.queue.mem.write s.queue.head v
          head := (s.queue.head + 1) % s.cfg.queueCapacity
          overflow := true } }
      else .fault .queueIndexOutOfRange

/-- `QueuePop()` (R42): the answer on RD. -/
def State.pop (s : State) : Result :=
  if s.queue.count = 0 then .next { s with out := { s.out with rd := some ⟨false, 0⟩ } }
  else if s.queue.head < s.cfg.queueCapacity then
    .next { s with
      queue := { s.queue with head := (s.queue.head + 1) % s.cfg.queueCapacity, count := s.queue.count - 1 }
      out := { s.out with rd := some ⟨true, s.entry s.queue.head⟩ } }
  else .fault .queueIndexOutOfRange

/-! ## The transmitter -/

/-- No pin write in this step: wr_valid = 0 (R20). -/
def State.noWrite (s : State) : State := { s with out := { s.out with wr := none } }

/-- `emit(l)`, the pin write (R122). -/
def State.emit (l : Level) (s : State) : State :=
  { s with
    tx := { s.tx with pin := l, cnt := s.cfg.cpb - 1 }
    out := { s.out with wr := some ⟨l, s.cyc⟩ } }

/-- The registers an accept loads (R121). -/
def State.load (v : Byte) (s : State) : State :=
  { s with tx := { s.tx with
    shift := alignTx s.cfg.bitOrder s.cfg.bits (wordOf s.cfg.bits v)
    rem := s.cfg.dataBits
    par := parityLevel v s.cfg.bits s.cfg.parityMode
    seg := .start
    excl := true } }

/-- The segment state moves on (R125, R126). -/
def State.toSeg (g : TxSeg) (s : State) : State := { s with tx := { s.tx with seg := g } }

/-- The shift of a data segment (R124). -/
def State.shiftData (s : State) : State :=
  { s with tx := { s.tx with
    shift := shiftTx s.cfg.bitOrder s.tx.shift
    rem := s.tx.rem - 1
    seg := .data } }

/-! ## The receiver -/

/-- The state moves on without a fault. -/
def State.toRx (r : RxState) (s : State) : State := { s with rx := { s.rx with state := r } }

/-- `rx_prev_ts <- ev_ts`, the write of the timing check (R153). -/
def State.stamp (ts : Nat) (s : State) : State := { s with rx := { s.rx with prevTs := ts } }

/-- The registers a start event writes (R151). -/
def State.startFrame (ts : Nat) (s : State) : State :=
  { s with rx := { s.rx with state := .inWord, rem := s.cfg.dataBits, acc := 0, prevTs := ts } }

/-- The fold and the decrement of a data event (R154). -/
def State.foldBit (l : Level) (s : State) : State :=
  { s with rx := { s.rx with acc := foldRx s.cfg.bitOrder s.rx.acc l, rem := s.rx.rem - 1 } }

/-- Fault entry, `raise Fault(d)` (R204): the state and the diagnostic, nothing else. -/
def State.raiseFault (d : Diag) (s : State) : State := { s with rx := { s.rx with state := .fault, diag := d } }

/-- Fault exit and RXRESET (R159, R206): back to Idle, the datapath and the diagnostic cleared. -/
def State.clearRx (s : State) : State := { s with rx := Rx.clear }

/-- The TimingGlitch of an event (R201). -/
def State.glitch (ts : Nat) (position : BitVec 4) (s : State) : Diag :=
  ⟨.timingGlitch, s.cfg.cpb, s.elapsed ts, position⟩

/-- The event past its timing check (R153, R208): TimingGlitch at this position when it is mistimed, else
`k` from the state whose `rx_prev_ts` is the event's. -/
def State.timed (ts : Nat) (position : BitVec 4) (k : State → Result) (s : State) : Result :=
  if s.onTime ts then k (s.stamp ts) else .next ((s.stamp ts).raiseFault (s.glitch ts position))

/-- The commit (R156): the realigned byte is pushed and RX returns to Idle. -/
def State.commit (s : State) : Result :=
  andThen (s.push (decoded s.cfg.bitOrder s.cfg.bits s.rx.acc)) fun t => .next (t.toRx .idle)

/-! ## Lines of the host and the bench -/

/-- Lines that come before those already pending. -/
def State.prepend (ls : List Line) (s : State) : State := { s with host := ls ++ s.host }

/-- The bench's lines for a sequence of levels: one event each, `cpb` cycles apart, the first at `t`
(R61, R212), timestamps modulo 2^TS_WIDTH. -/
def benchLines (c : Cfg) : Nat → List Level → List Line
  | _, [] => []
  | t, l :: ls => .ev l (t % c.tsMod) :: .hold (c.cpb - 1) :: benchLines c (t + c.cpb) ls

/-- A frame of these data levels and this parity level is one this instance emits: the condition of the
frame's row (R62), and the parity level R65 asks for. -/
def Cfg.emits (c : Cfg) (ds : List Level) (p : Option Level) : Bool :=
  decide (c.bits = ds.length) &&
    decide (p = if c.parityMode = .none then none
      else some (parityLevel (valueOfLevels c.bitOrder ds) c.bits c.parityMode))

/-- The lines that put a frame of these data levels and this parity level on the line (log 11): the
transmitter's own request when the frame is one this instance emits, else the bench's events. -/
def State.frameLines (ds : List Level) (p : Option Level) (s : State) : List Line :=
  if Cfg.emits s.cfg ds p then [.tx (valueOfLevels s.cfg.bitOrder ds)]
  else benchLines s.cfg s.cyc ([false] ++ ds ++ p.toList ++ [true])

/-- Every element to its value after power-on reset (R31, R230). The configuration, the outside world's
lines and ports and the model's own record of what was read stay; the free values of `q_mem` change. -/
def State.powerOn (s : State) : State :=
  { State.reset with
    cfg := s.cfg, running := s.running, epoch := s.epoch + 1, inp := s.inp, obs := s.obs, host := s.host }

/-- The clock's part of a step (R11). -/
def State.tick (s : State) : State := { s with cyc := (s.cyc + 1) % s.cfg.tsMod }

end Sys2Proof.Machine
end

