-- ==== Sys2Proof/Machine/Encoder.lean ====
section
/-! DEFINITION. The meaning of ENCODE, the Word Encoder (41_word_encoder R100): a pure function of its own
operands, whose level list an observer reads (log 13). -/

namespace Sys2Proof.Machine

/-- R100, on the configuration fields of the instruction's own word; an illegal field is a configuration
error (R71). -/
def execEncode (v : Byte) (p : BitVec 2) (o : BitVec 1) (b : BitVec 4) (s : State) : Result :=
  if legalParityCode p && legalDataBits b then
    .next { s with obs := { s.obs with
      levels := frameLevels v b.toNat (BitOrder.ofCode o) (ParityMode.ofCode p) } }
  else .refused .configurationError

end Sys2Proof.Machine
end

