-- ==== Sys2Proof/Machine/Formats.lean ====
section
/-! DEFINITION. The meanings of the layouts of the port and register words (30_encoding R67, R68, R69, R76):
a word on an input port gives the port's fields their values for the next clock cycle; a word of an output
port or register is read by an observer, which changes nothing of the block (R48, log 10). -/

namespace Sys2Proof.Machine

/-- R67: tx_valid and tx_data. -/
def execFmtTxreq (e : Bool) (v : Byte) (s : State) : Result :=
  .next { s with inp := { s.inp with txreq := pack9 e v } }

/-- R68: ev_valid, ev_level and ev_ts, from the bench (R212). -/
def execFmtEvt (e : Bool) (l : Level) (ts : Nat) (s : State) : Result :=
  .next { s with inp := { s.inp with evt := some (packEvt s.cfg.tsWidth e l ts) } }

/-- The word on RD: rd_valid = 0 when nothing was read in the last step (R76). -/
def State.rdWord (s : State) : BitVec 9 :=
  match s.out.rd with
  | some a => pack9 a.valid a.data
  | none => pack9 false 0

/-- R76: the answer on RD is read; the word's bits are the port's, not an operand. -/
def execFmtRd (_e : Bool) (_v : Byte) (s : State) : Result :=
  .next { s with obs := { s.obs with rd := s.rdWord } }

/-- The packed diagnostic register (R69). -/
def State.diagWord (s : State) : Nat :=
  packDiag s.cfg.tsWidth s.rx.diag.actual s.rx.diag.expected s.rx.diag.position s.rx.diag.kind.code

/-- R69: the diagnostic register is read; the word's bits are the register's, not an operand. -/
def execFmtDiag (_a _e : Nat) (_p : BitVec 4) (_k : BitVec 2) (s : State) : Result :=
  .next { s with obs := { s.obs with diag := s.diagWord } }

end Sys2Proof.Machine
end

