-- ==== Sys2Proof/Machine/Frames.lean ====
section
/-! DEFINITION. The meanings of the sixteen frame formats (30_encoding R62): the word is put on the line as
a frame, each level held CPB cycles (R60, R61). A frame this instance emits (the data, the order, the length
and the parity level are those of ENCODE on its configuration) is sent by TX, through its request port; any
other can only be delivered by the bench to the receiver's event port (60 R212). See log 11. -/

namespace Sys2Proof.Machine

/-- FRAME.1N (R62). -/
def execFrame1N (d : BitVec 1) (s : State) : Result :=
  .next (s.prepend (s.frameLines (levelsOf d) none))

/-- FRAME.1P (R62). -/
def execFrame1P (d : BitVec 1) (p : Level) (s : State) : Result :=
  .next (s.prepend (s.frameLines (levelsOf d) (some p)))

/-- FRAME.2N (R62). -/
def execFrame2N (d : BitVec 2) (s : State) : Result :=
  .next (s.prepend (s.frameLines (levelsOf d) none))

/-- FRAME.2P (R62). -/
def execFrame2P (d : BitVec 2) (p : Level) (s : State) : Result :=
  .next (s.prepend (s.frameLines (levelsOf d) (some p)))

/-- FRAME.3N (R62). -/
def execFrame3N (d : BitVec 3) (s : State) : Result :=
  .next (s.prepend (s.frameLines (levelsOf d) none))

/-- FRAME.3P (R62). -/
def execFrame3P (d : BitVec 3) (p : Level) (s : State) : Result :=
  .next (s.prepend (s.frameLines (levelsOf d) (some p)))

/-- FRAME.4N (R62). -/
def execFrame4N (d : BitVec 4) (s : State) : Result :=
  .next (s.prepend (s.frameLines (levelsOf d) none))

/-- FRAME.4P (R62). -/
def execFrame4P (d : BitVec 4) (p : Level) (s : State) : Result :=
  .next (s.prepend (s.frameLines (levelsOf d) (some p)))

/-- FRAME.5N (R62). -/
def execFrame5N (d : BitVec 5) (s : State) : Result :=
  .next (s.prepend (s.frameLines (levelsOf d) none))

/-- FRAME.5P (R62). -/
def execFrame5P (d : BitVec 5) (p : Level) (s : State) : Result :=
  .next (s.prepend (s.frameLines (levelsOf d) (some p)))

/-- FRAME.6N (R62). -/
def execFrame6N (d : BitVec 6) (s : State) : Result :=
  .next (s.prepend (s.frameLines (levelsOf d) none))

/-- FRAME.6P (R62). -/
def execFrame6P (d : BitVec 6) (p : Level) (s : State) : Result :=
  .next (s.prepend (s.frameLines (levelsOf d) (some p)))

/-- FRAME.7N (R62). -/
def execFrame7N (d : BitVec 7) (s : State) : Result :=
  .next (s.prepend (s.frameLines (levelsOf d) none))

/-- FRAME.7P (R62). -/
def execFrame7P (d : BitVec 7) (p : Level) (s : State) : Result :=
  .next (s.prepend (s.frameLines (levelsOf d) (some p)))

/-- FRAME.8N (R62). -/
def execFrame8N (d : BitVec 8) (s : State) : Result :=
  .next (s.prepend (s.frameLines (levelsOf d) none))

/-- FRAME.8P (R62). -/
def execFrame8P (d : BitVec 8) (p : Level) (s : State) : Result :=
  .next (s.prepend (s.frameLines (levelsOf d) (some p)))

end Sys2Proof.Machine
end

