-- ==== Sys2Proof/Machine/Helpers.lean ====
section
/-! DEFINITION. The meanings of the host's pseudo-operations (44_sequence_helpers): their expansion into
blocking TX lines, which take the place of the line (log 12). -/

namespace Sys2Proof.Machine

/-- The expansion of PRINT (R190): one blocking TX a byte, in list order. -/
def printLines (bs : List Byte) : List Line := bs.map Line.tx

/-- R190. -/
def execPrint (_x : BitVec 9) (bs : List Byte) (s : State) : Result := .next (s.prepend (printLines bs))

/-- R191: the payload, then the line terminator. -/
def execPrintln (_x : BitVec 9) (bs : List Byte) (s : State) : Result :=
  .next (s.prepend (printLines bs ++ printLines s.cfg.lineTerminator))

end Sys2Proof.Machine
end

