-- ==== Sys2Proof/Machine/Receiver.lean ====
section
/-! DEFINITION. The meanings of the reference receiver's operations (43_reference_receiver). Each EV acts in
the receiver state that selects it (R150) and where a receiver exists (R4, VERIFY); in any other state the
operation is not performed (log 4, log 14). -/

namespace Sys2Proof.Machine

/-- R151: the start of a frame. -/
def execEvIdle0 (ts : Nat) (s : State) : Result :=
  if s.rxIn .idle then .next (s.startFrame ts) else .next s

/-- R152: a write of the idle level while idle starts nothing. -/
def execEvIdle1 (_ts : Nat) (s : State) : Result := .next s

/-- The state a data event leads to (R154): stay until the count reaches 0. -/
def State.afterData (s : State) : State :=
  if s.rx.rem = 0 then s.toRx (if s.cfg.parityMode ≠ .none then .parityBit else .stopBit) else s

/-- R154: one data bit; the fold and the decrement happen also when the timing check fails. -/
def execEvInword (l : Level) (ts : Nat) (s : State) : Result :=
  if s.rxIn .inWord then
    (s.foldBit l).timed ts (s.cfg.dataBits - s.rx.rem) fun t => .next t.afterData
  else .next s

/-- The parity check on a timed event (R155, R202). -/
def State.checkParity (l : Level) (s : State) : State :=
  if l = s.expectedParity then s.toRx .stopBit
  else s.raiseFault ⟨.parityMismatch, levelNat s.expectedParity, levelNat l, s.cfg.dataBits⟩

/-- R155: the parity event; timing first (R208). -/
def execEvParity (l : Level) (ts : Nat) (s : State) : Result :=
  if s.rxIn .parityBit then s.timed ts s.cfg.dataBits fun t => .next (t.checkParity l) else .next s

/-- R156: the commit. -/
def execEvStop1 (ts : Nat) (s : State) : Result :=
  if s.rxIn .stopBit then s.timed ts s.stopPosition State.commit else .next s

/-- What a level-0 stop event with correct timing does (R157, R203). -/
def State.badStop (s : State) : Result :=
  match s.cfg.stop0Policy with
  | .dropSilently => .next (s.toRx .idle)
  | .commitAnyway => s.commit
  | .framingFault => .next (s.raiseFault ⟨.framingError, 1, 0, s.stopPosition⟩)

/-- R157: a stop segment of the wrong level; timing first (R208). -/
def execEvStop0 (ts : Nat) (s : State) : Result :=
  if s.rxIn .stopBit then s.timed ts s.stopPosition State.badStop else .next s

/-- R158: nothing changes in Fault. -/
def execEvFault (_l : Level) (_ts : Nat) (s : State) : Result := .next s

/-- R159: the external reset of the receiver. -/
def execRxreset (s : State) : Result := if s.cfg.verify then .next s.clearRx else .next s

/-- R160: the read operation. -/
def execRxread (s : State) : Result := if s.cfg.verify then s.pop else .next s

end Sys2Proof.Machine
end

