-- ==== Sys2Proof/Machine/System.lean ====
section
/-! DEFINITION. The meanings of power-on reset (70 R230) and of what happens at configuration time: CPB
(40 R90) and the configuration word (30_encoding R66). Once the instance runs its configuration cannot
change (10_state R10, 70 R236), so the two have no effect then (log 3). -/

namespace Sys2Proof.Machine

/-- R230: power-on reset of the whole block; no event. -/
def execPor (s : State) : Result := .next s.powerOn

/-- R90: cyclesPerBit of the pair into CFG.CPB; an uncalibrated pair is a configuration error (R91). -/
def execCpb (f b : Nat) (s : State) : Result :=
  if s.running then .next s
  else if s.cfg.calibrated f b then
    .next { s with cfg := { s.cfg with clockFrequency := f, baudRate := b, cpb := cyclesPerBit f b } }
  else .refused .configurationError

/-- R66: the configuration word into CFG; an illegal field is a configuration error (R71). -/
def execFmtCfgw (p : BitVec 2) (o : BitVec 1) (b : BitVec 4) (s : State) : Result :=
  if s.running then .next s
  else if legalParityCode p && legalDataBits b then
    .next { s with cfg := { s.cfg with
      dataBits := b, bitOrder := BitOrder.ofCode o, parityMode := ParityMode.ofCode p } }
  else .refused .configurationError

end Sys2Proof.Machine
end

