-- ==== Sys2Proof/Machine/Transmitter.lean ====
section
/-! DEFINITION. The meanings of the transmission driver's operations (42_transmission_driver). Each acts in
the states that select it (R120); in any other state the operation is not performed (log 4). -/

namespace Sys2Proof.Machine

/-- R121: accept. -/
def execTx (v : Byte) (s : State) : Result :=
  if s.txSel = .idle then .next ((s.load v).emit false) else .next s

/-- R129: a request while a frame is in flight has no effect on any state and is not remembered. -/
def execTxRefused (_v : Byte) (s : State) : Result := .next s

/-- R134: no state of TX changes, no pin write. -/
def execTxidle (_x : Byte) (s : State) : Result :=
  if s.txSel = .idle then .next s.noWrite else .next s

/-- R123: the hold counter goes down; no pin write. -/
def execTxhold (_x : BitVec 9) (s : State) : Result :=
  if s.txSel = .hold then
    .next { s.noWrite with tx := { s.tx with cnt := s.tx.cnt - 1 } }
  else .next s

/-- R124: one data segment. -/
def execTxdata (_x : BitVec 9) (s : State) : Result :=
  if s.txSel = .data then .next (s.shiftData.emit (shiftOut s.cfg.bitOrder s.tx.shift)) else .next s

/-- R125: the parity segment. -/
def execTxparity (_x : BitVec 9) (s : State) : Result :=
  if s.txSel = .parity then .next ((s.toSeg .parity).emit s.tx.par) else .next s

/-- R126: the stop segment. -/
def execTxstop (_x : BitVec 9) (s : State) : Result :=
  if s.txSel = .stop then .next ((s.toSeg .stop).emit true) else .next s

/-- R127: the end of the frame; the exclusive section is released, no pin write. -/
def execTxend (_x : BitVec 9) (s : State) : Result :=
  if s.txSel = .finish then
    .next { s.noWrite with tx := { s.tx with seg := .idle, excl := false } }
  else .next s

end Sys2Proof.Machine
end

