-- ==== Sys2Proof/Machine/Dispatch.lean ====
section
/-! DEFINITION. The machine's dispatch: one arm for each operation. -/

namespace Sys2Proof.Machine

def exec (i : Instr) (s : State) : Host.Outcome State Fault Refusal :=
  match i with
  | .por => Sys2Proof.Machine.execPor s
  | .tx v => Sys2Proof.Machine.execTx v s
  | .txRefused v => Sys2Proof.Machine.execTxRefused v s
  | .txidle x => Sys2Proof.Machine.execTxidle x s
  | .txhold x => Sys2Proof.Machine.execTxhold x s
  | .txdata x => Sys2Proof.Machine.execTxdata x s
  | .txparity x => Sys2Proof.Machine.execTxparity x s
  | .txstop x => Sys2Proof.Machine.execTxstop x s
  | .txend x => Sys2Proof.Machine.execTxend x s
  | .evIdle0 ts => Sys2Proof.Machine.execEvIdle0 ts s
  | .evIdle1 ts => Sys2Proof.Machine.execEvIdle1 ts s
  | .evInword l ts => Sys2Proof.Machine.execEvInword l ts s
  | .evParity l ts => Sys2Proof.Machine.execEvParity l ts s
  | .evStop1 ts => Sys2Proof.Machine.execEvStop1 ts s
  | .evStop0 ts => Sys2Proof.Machine.execEvStop0 ts s
  | .evFault l ts => Sys2Proof.Machine.execEvFault l ts s
  | .rxreset => Sys2Proof.Machine.execRxreset s
  | .rxread => Sys2Proof.Machine.execRxread s
  | .cpb f b => Sys2Proof.Machine.execCpb f b s
  | .encode v p o b => Sys2Proof.Machine.execEncode v p o b s
  | .print x bs => Sys2Proof.Machine.execPrint x bs s
  | .println x bs => Sys2Proof.Machine.execPrintln x bs s
  | .fmtCfgw p o b => Sys2Proof.Machine.execFmtCfgw p o b s
  | .fmtTxreq e v => Sys2Proof.Machine.execFmtTxreq e v s
  | .fmtEvt e l ts => Sys2Proof.Machine.execFmtEvt e l ts s
  | .fmtRd e v => Sys2Proof.Machine.execFmtRd e v s
  | .fmtDiag a e p k => Sys2Proof.Machine.execFmtDiag a e p k s
  | .frame1n d => Sys2Proof.Machine.execFrame1N d s
  | .frame1p d p => Sys2Proof.Machine.execFrame1P d p s
  | .frame2n d => Sys2Proof.Machine.execFrame2N d s
  | .frame2p d p => Sys2Proof.Machine.execFrame2P d p s
  | .frame3n d => Sys2Proof.Machine.execFrame3N d s
  | .frame3p d p => Sys2Proof.Machine.execFrame3P d p s
  | .frame4n d => Sys2Proof.Machine.execFrame4N d s
  | .frame4p d p => Sys2Proof.Machine.execFrame4P d p s
  | .frame5n d => Sys2Proof.Machine.execFrame5N d s
  | .frame5p d p => Sys2Proof.Machine.execFrame5P d p s
  | .frame6n d => Sys2Proof.Machine.execFrame6N d s
  | .frame6p d p => Sys2Proof.Machine.execFrame6P d p s
  | .frame7n d => Sys2Proof.Machine.execFrame7N d s
  | .frame7p d p => Sys2Proof.Machine.execFrame7P d p s
  | .frame8n d => Sys2Proof.Machine.execFrame8N d s
  | .frame8p d p => Sys2Proof.Machine.execFrame8P d p s

end Sys2Proof.Machine
end

