-- ==== Sys2Proof/Machine/Cycle.lean ====
section
/-! DEFINITION. One clock cycle of the block: the operations the ports and the state select, in the order of
60_exceptions R211, each run by `exec`. -/

namespace Sys2Proof.Machine

/-- Run instructions one after another. -/
def execAll : List Instr → State → Result
  | [], s => .next s
  | i :: is, s => andThen (exec i s) (execAll is)

/-- The TX operations of a step (R120): the request's, and while a frame is in flight the clock's. -/
def txInstrs (sel : Select) (w : BitVec 9) : List Instr :=
  (decodeRequest sel.tx w).toList ++ (decodeClock sel.tx w).toList

/-- The event of a step that RX sees: the bench's word, else TX's own write (R29, R212). -/
def State.eventWord (p : Ports) (s : State) : Nat :=
  match p.evt with
  | some w => w
  | none =>
    match s.out.wr with
    | some e => packEvt s.cfg.tsWidth true e.level e.ts
    | none => packEvt s.cfg.tsWidth false false 0

/-- The EV operation of an event word, none when it carries no event (R150). -/
def evInstrs (sel : Select) (w : Nat) : List Instr := (decodeEvent sel.tsWidth sel.rx w).toList

/-- (1) of R211: RXREAD. -/
def readPhase (p : Ports) (s : State) : Result := execAll (if p.rxRead then [.rxread] else []) s

/-- (2) of R211: the TX operation. -/
def txPhase (p : Ports) (s : State) : Result := execAll (txInstrs s.select p.txreq) s

/-- (3) of R211: RXRESET, which discards the step's event, or else the event. -/
def rxPhase (p : Ports) (s : State) : Result :=
  execAll (if p.rxReset then [.rxreset] else evInstrs s.select (s.eventWord p)) s

/-- What a step begins with: the input ports are taken, the output ports carry nothing yet. -/
def State.begin (s : State) : State := { s with running := true, inp := Ports.quiet, out := Outs.quiet }

/-- One clock cycle with these values on the input ports (R7, R211); POR overrides the rest, and the first
step after it has `cyc` 0 (R230). -/
def cycle (p : Ports) (s : State) : Result :=
  if p.por then exec .por s.begin
  else
    andThen (readPhase p s.begin) fun s1 =>
      andThen (txPhase p s1) fun s2 =>
        andThen (rxPhase p s2) fun s3 => .next s3.tick

/-- Clock cycles one after another, with the ports' values of each. -/
def cycles : List Ports → State → Result
  | [], s => .next s
  | p :: ps, s => andThen (cycle p s) (cycles ps)

/-- RX over an arbitrary list of events (R212). -/
def deliver : List Event → State → Result
  | [], s => .next s
  | e :: es, s =>
    andThen (execAll (evInstrs s.select (packEvt s.cfg.tsWidth true e.level e.ts)) s) (deliver es)

end Sys2Proof.Machine
end

