-- ==== Sys2Proof/Machine/Fetch.lean ====
section
/-! DEFINITION. What the next step takes from the pending lines of the host and the bench (30_encoding R73,
log 5): the values of the ports for one clock cycle, or an encoded instruction that stands on no port. -/

namespace Sys2Proof.Machine

/-- What a step takes, and the lines that stay. -/
inductive Fetched where
  | ports (p : Ports) (rest : List Line)
  | code (c : Code) (rest : List Line)
  deriving DecidableEq, Repr

/-- The ports that a code of a port's format drives in the cycle; none for the other formats and for a
code that is no word of its port. -/
def portsOf (cpbWidth tsWidth : Nat) (inp : Ports) (c : Code) : Option Ports :=
  if 2 ^ c.fmt.width cpbWidth tsWidth ≤ c.word ∨ c.payload ≠ [] then none
  else
    match c.fmt with
    | .reset => if c.word = 1 then some { inp with por := true } else none
    | .request => some { inp with txreq := BitVec.ofNat 9 c.word }
    | .clock => some { inp with txreq := BitVec.ofNat 9 c.word }
    | .event => some { inp with evt := some c.word }
    | .resetStrobe => if c.word = 1 then some { inp with rxReset := true } else none
    | .readStrobe => if c.word = 1 then some { inp with rxRead := true } else none
    | _ => none

/-- The next line's values of the ports, on top of those already given for the step (`inp`); `ready` is
tx_ready. A line that is over takes no step. -/
def fetch (cfg : Cfg) (ready : Bool) (inp : Ports) : List Line → Fetched
  | [] => .ports inp []
  | .por :: r => .ports { inp with por := true } r
  | .tx v :: r =>
    .ports { inp with txreq := pack9 true v } (if ready then .await :: r else .tx v :: r)
  | .await :: r => if ready then fetch cfg ready inp r else .ports inp (.await :: r)
  | .wait 0 :: r => fetch cfg ready inp r
  | .wait (n + 1) :: r => .ports inp (.wait n :: r)
  | .ev l t :: r => .ports { inp with evt := some (packEvt cfg.tsWidth true l t) } r
  | .hold 0 :: r => fetch cfg ready inp r
  | .hold (n + 1) :: r => .ports { inp with evt := some (packEvt cfg.tsWidth false false 0) } (.hold n :: r)
  | .rxRead :: r => .ports { inp with rxRead := true } r
  | .rxReset :: r => .ports { inp with rxReset := true } r
  | .drive p :: r => .ports p r
  | .code c :: r =>
    match portsOf cfg.cpbWidth cfg.tsWidth inp c with
    | some p => .ports p r
    | none => .code c r

end Sys2Proof.Machine
end

