-- ==== Sys2Proof/Machine/Step.lean ====
section
/-! DEFINITION. One step of the machine: a clock cycle, or an instruction that takes none (log 1). -/

namespace Sys2Proof.Machine

/-- One step. An invalid configuration is no instance (R4, R71). -/
def step (s : State) : Host.Outcome State Fault Refusal :=
  if s.cfg.valid then
    match fetch s.cfg s.txReady s.inp s.host with
    | .ports p rest => cycle p { s with host := rest }
    | .code c rest =>
      match decode s.select c with
      | .ok i => exec i { s with host := rest }
      | .error e => .refused (.undecodable e)
  else .refused .configurationError

/-- The state whose next step runs the instruction of a bare word of the opcode table: its code is the
first pending line, and no port is driven beside it. A word that no row accepts stands as a code that
step refuses. -/
def State.withFetchWord (s : State) (nbits w : Nat) : State :=
  let c : Code :=
    match decodeTableWord nbits w with
    | some i => encode s.cfg.tsWidth i
    | none => ⟨.frame 0 false, w, []⟩
  { s with inp := Ports.quiet, host := .code c :: s.host }

end Sys2Proof.Machine
end

