-- ==== Sys2Proof/Safety.lean ====
section
/-! DEFINITION. What a good state and a safe run of the block are, in the terms the claims use: the invariant
of 10_state (R14 to R34), the events of a frame (42 R130), and the queue seen as a list (20_memory R41). -/

namespace Sys2Proof.Machine

/-- The transmitter's part of the invariant (R12 to R18, R34). -/
structure TxOk (c : Cfg) (t : Tx) : Prop where
  /-- R14: at most `dataBits` data segments are left. -/
  rem_le : t.rem.toNat ≤ c.bits
  /-- R34(b): the hold counter is below CPB. -/
  cnt_lt : t.cnt < c.cpb
  /-- R120: a start segment finds every data segment left. -/
  start_rem : t.seg = .start → t.rem = c.dataBits
  /-- No data segment is left once parity or stop is on the pin. -/
  late_rem : t.seg = .parity ∨ t.seg = .stop → t.rem = 0
  /-- R60: a parity segment only where parity is configured. -/
  parity_configured : t.seg = .parity → c.parityMode ≠ .none
  /-- R12, R60: the start segment is 0, the stop segment and the idle line are 1. -/
  start_level : t.seg = .start → t.pin = false
  mark_level : t.seg = .idle ∨ t.seg = .stop → t.pin = true
  /-- R18, R128: the exclusive section is held exactly while a frame is in flight. -/
  excl_iff : t.excl = true ↔ t.seg ≠ .idle

/-- The accumulator holds `k` folded bits and zeros elsewhere (R155, R162). -/
def accHolds (order : BitOrder) (k : Nat) (acc : Byte) : Prop :=
  match order with
  | .lsb => acc.toNat % 2 ^ (8 - k) = 0
  | .msb => acc.toNat < 2 ^ k

/-- The receiver's part of the invariant (R22 to R26, R34). -/
structure RxOk (c : Cfg) (r : Rx) : Prop where
  /-- R25: a timestamp has TS_WIDTH bits. -/
  prev_lt : r.prevTs < c.tsMod
  /-- R24: at most `dataBits` data events are awaited. -/
  rem_le : r.rem.toNat ≤ c.bits
  /-- R34(d): in InWord at least one. -/
  inWord_rem : r.state = .inWord → 1 ≤ r.rem.toNat
  /-- R155: ParityBit is entered only where parity is configured. -/
  parity_configured : r.state = .parityBit → c.parityMode ≠ .none
  /-- The word received so far, in InWord and after it. -/
  inWord_acc : r.state = .inWord → accHolds c.bitOrder (c.bits - r.rem.toNat) r.acc
  word_acc : r.state = .parityBit ∨ r.state = .stopBit → accHolds c.bitOrder c.bits r.acc
  /-- R30: there is a diagnostic exactly in Fault. -/
  diag_iff : r.diag.kind ≠ .none ↔ r.state = .fault
  diag_clear : r.state ≠ .fault → r.diag = Diag.clear
  /-- R26: the widths of the diagnostic's fields, and its positions 0..9. -/
  diag_fits : r.diag.expected < c.tsMod ∧ r.diag.actual < c.tsMod ∧ r.diag.position.toNat ≤ 9
  /-- R26: FramingError only under its policy. -/
  framing_policy : r.diag.kind = .framingError → c.stop0Policy = .framingFault

/-- The queue's part of the invariant (R27, R34(g), R40, R48). -/
structure QueueOk (c : Cfg) (q : Queue) : Prop where
  head_lt : q.head < c.queueCapacity
  count_le : q.count ≤ c.queueCapacity
  mem_wf : Memory.wf q.mem = true
  /-- R40, R48: entries stand at existing indexes, and only their low `dataBits` bits can be 1. -/
  cells_fit : ∀ cell ∈ q.mem, cell.1 < c.queueCapacity ∧ cell.2.toNat < 2 ^ c.bits
  /-- R41: every valid entry has been written. -/
  entries_written : ∀ i, i < q.count → (Memory.read ((q.head + i) % c.queueCapacity) q.mem).isSome = true

/-- The invariant of the machine. -/
structure State.Inv (s : State) : Prop where
  valid : s.cfg.valid = true
  cyc_lt : s.cyc < s.cfg.tsMod
  tx : TxOk s.cfg s.tx
  rx : RxOk s.cfg s.rx
  queue : QueueOk s.cfg s.queue
  /-- Before the first cycle the block is as reset leaves it (log 3). -/
  quiescent : s.running = false →
    s.tx = State.reset.tx ∧ s.rx = Rx.clear ∧ s.queue = State.reset.queue

/-- Whether words of a format stand on a port, so that the instruction runs inside a clock cycle. -/
def onPort : Format → Bool
  | .reset => true
  | .request => true
  | .clock => true
  | .event => true
  | .resetStrobe => true
  | .readStrobe => true
  | .config => false
  | .function => false
  | .print => false
  | .println => false
  | .cfgw => false
  | .txreq => false
  | .evt => false
  | .rd => false
  | .diag => false
  | .frame _ _ => false

/-- What a TX operation leaves alone: all but TX's registers and the write-event port (R33). -/
def TxFrame (s t : State) : Prop := t = { s with tx := t.tx, out := { s.out with wr := t.out.wr } }

/-- What an EV operation that commits nothing leaves alone: all but RX's registers (R33). -/
def RxFrame (s t : State) : Prop := t = { s with rx := t.rx }

/-- What a committing EV operation leaves alone: all but RX's registers and the queue (R33). -/
def CommitFrame (s t : State) : Prop := t = { s with rx := t.rx, queue := t.queue }

/-- The events of a frame whose start write is at `t0` (R130(a)). -/
def frameEvents (c : Cfg) (v : Byte) (t0 : Nat) : List Event :=
  (frameOf c v).mapIdx fun k l => ⟨l, (t0 + k * c.cpb) % c.tsMod⟩

end Sys2Proof.Machine
end

