-- ==== Sys2Proof/Certificates/Slice0/Obligations.lean ====
section
/-! DEFINITION. The statements about the model. Each docstring names the rule of spec/ it formalises and, where
a clause rests on the model's own choice, the log entry. -/

open Sys2Proof Sys2Proof.Machine

/-! ## Encoding -/

/-- Words whose bits are written out from 30_encoding R62, R66 to R70 and R76, and the rows they are. That a word
stands on a named format is log 6, that CPB's pair and PRINT's bytes stand beside the word is log 6 and log 9 (the
model's choice; R90 gives CPB no encoding). -/
def Obligations.KnownWordsDecode : Prop :=
  decode Select.reset ⟨.request, 0b101001000, []⟩ = .ok (.tx 0x48) ∧
  decode ⟨.hold, .idle, 16, 32⟩ ⟨.request, 0b101001000, []⟩ = .ok (.txRefused 0x48) ∧
  decode Select.reset ⟨.request, 0b001001000, []⟩ = .ok (.txidle 0x48) ∧
  decode ⟨.data, .idle, 16, 32⟩ ⟨.clock, 0b101001000, []⟩ = .ok (.txdata 0x148) ∧
  decode Select.reset ⟨.event, 0x200000064, []⟩ = .ok (.evIdle0 100) ∧
  decode ⟨.idle, .inWord, 16, 32⟩ ⟨.event, 0x300000164, []⟩ = .ok (.evInword true 356) ∧
  decode ⟨.idle, .stopBit, 16, 32⟩ ⟨.event, 0x300000264, []⟩ = .ok (.evStop1 612) ∧
  decode Select.reset ⟨.resetStrobe, 1, []⟩ = .ok .rxreset ∧
  decode Select.reset ⟨.cfgw, 0b01010001, []⟩ = .ok (.fmtCfgw 2 1 1) ∧
  decode Select.reset ⟨.function, 0b0100100000000111, []⟩ = .ok (.encode 0x48 0 0 7) ∧
  decode Select.reset ⟨.config, 64, [16000000, 250000]⟩ = .ok (.cpb 16000000 250000) ∧
  decode Select.reset ⟨.diag, 0b1100010, []⟩ = .ok (.fmtDiag 0 1 8 2) ∧
  decode Select.reset ⟨.rd, 0b101001000, []⟩ = .ok (.fmtRd true 0x48) ∧
  decode Select.reset ⟨.frame 7 false, 0b000010011, []⟩ = .ok (.frame7n 0b0001001) ∧
  decode Select.reset ⟨.frame 5 true, 0b01010111, []⟩ = .ok (.frame5p 0b10101 true) ∧
  decode Select.reset ⟨.print, 0, [0x48, 0x69]⟩ = .ok (.print 0 [0x48, 0x69])

/-- Decoding the encoding of any well-formed instruction, in a state that selects it, gives it back: no bit
of an encoding is dropped. -/
def Obligations.DecodeOfEncode : Prop :=
  ∀ (sel : Select) (i : Instr), i.wellFormed sel.cpbWidth sel.tsWidth = true → i.selectedBy sel = true →
    decode sel (encode sel.tsWidth i) = .ok i

/-- Whatever the decoder accepts is well formed, selected, and is the encoding of what it answers: each code
has one meaning in a state. -/
def Obligations.EncodeOfDecode : Prop :=
  ∀ (sel : Select) (c : Code) (i : Instr), decode sel c = .ok i →
    encode sel.tsWidth i = c ∧ i.wellFormed sel.cpbWidth sel.tsWidth = true ∧ i.selectedBy sel = true

/-- R66 (the spec's decision D4): the configuration word's fields and its illegal values, the illegal counts of the
separate CPB field, and the defaults' word 0x08. -/
def Obligations.ConfigurationWordLayout : Prop :=
  (∀ (sel : Select) (w : Nat), w < 256 →
    (w % 16 = 0 ∨ 8 < w % 16 ∨ w / 32 % 4 = 3 ∨ w / 128 = 1 →
      decode sel ⟨.cfgw, w, []⟩ = .error .reserved) ∧
    (1 ≤ w % 16 ∧ w % 16 ≤ 8 ∧ w / 32 % 4 ≠ 3 ∧ w / 128 = 0 →
      ∃ p o b, decode sel ⟨.cfgw, w, []⟩ = .ok (.fmtCfgw p o b) ∧
        b.toNat = w % 16 ∧ o.toNat = w / 16 % 2 ∧ p.toNat = w / 32 % 4)) ∧
  (BitOrder.lsb.code = 0 ∧ BitOrder.msb.code = 1 ∧
    ParityMode.none.code = 0 ∧ ParityMode.even.code = 1 ∧ ParityMode.odd.code = 2) ∧
  (∀ (sel : Select) (w : Nat) (operands : List Nat) (i : Instr), w = 0 ∨ 2 ^ sel.cpbWidth ≤ w →
    decode sel ⟨.config, w, operands⟩ ≠ .ok i) ∧
  decode Select.reset ⟨.cfgw, 0x08, []⟩ = .ok (.fmtCfgw ParityMode.none.code BitOrder.lsb.code 8)

/-! ## Steps -/

/-- An instruction whose word stands on no port: when it is the next line of a valid instance, the step is
`exec` of it, past the line, and takes no clock cycle (log 1). -/
def Obligations.StepRunsInstructionOffThePorts : Prop :=
  ∀ (s : State) (i : Instr) (rest : List Line), s.cfg.valid = true →
    i.wellFormed s.cfg.cpbWidth s.cfg.tsWidth = true → onPort (encode s.cfg.tsWidth i).fmt = false →
    s.host = .code (encode s.cfg.tsWidth i) :: rest →
    step s = exec i { s with host := rest }

/-- An instruction of the request port that the state selects, alone on the ports: the step runs it as the
TX operation of a clock cycle, then the receiver's phase and the clock (R120, R211). A refused request
leaves the clock's own operation to run (R129). -/
def Obligations.StepRunsTransmitterInstruction : Prop :=
  ∀ (s : State) (i : Instr) (rest : List Line), s.cfg.valid = true → s.inp = Ports.quiet →
    s.host = .code (encode s.cfg.tsWidth i) :: rest → i.selectedBy s.select = true →
    ((encode s.cfg.tsWidth i).fmt = .request ∨ (encode s.cfg.tsWidth i).fmt = .clock →
      (∀ v, i ≠ .txRefused v) →
      step s = andThen (exec i (State.begin { s with host := rest })) fun t =>
        andThen (rxPhase Ports.quiet t) fun u => .next u.tick) ∧
    (∀ v, i = .txRefused v →
      step s = andThen (exec i (State.begin { s with host := rest })) fun t =>
        andThen (execAll (decodeClock t.txSel (pack9 true v)).toList t) fun u =>
          andThen (rxPhase Ports.quiet u) fun w => .next w.tick)

/-- An event on the event port that the state selects: the step runs TX's own operation, then the event's,
then the clock (R211, R212). -/
def Obligations.StepRunsEventInstruction : Prop :=
  ∀ (s : State) (i : Instr) (rest : List Line), s.cfg.valid = true → s.inp = Ports.quiet →
    s.host = .code (encode s.cfg.tsWidth i) :: rest → i.selectedBy s.select = true →
    i.wellFormed s.cfg.cpbWidth s.cfg.tsWidth = true → (encode s.cfg.tsWidth i).fmt = .event →
    step s = andThen (txPhase Ports.quiet (State.begin { s with host := rest })) fun t =>
      andThen (exec i t) fun u => .next u.tick

/-- The three strobes: POR overrides the step (R230), RXREAD is served before TX's operation, RXRESET takes the
event's place (R211). -/
def Obligations.StepRunsStrobes : Prop :=
  ∀ (s : State) (rest : List Line), s.cfg.valid = true → s.inp = Ports.quiet →
    (s.host = .code (encode s.cfg.tsWidth .por) :: rest →
      step s = exec .por (State.begin { s with host := rest })) ∧
    (s.host = .code (encode s.cfg.tsWidth .rxread) :: rest →
      step s = andThen (exec .rxread (State.begin { s with host := rest })) fun t =>
        andThen (txPhase Ports.quiet t) fun u => andThen (rxPhase Ports.quiet u) fun w => .next w.tick) ∧
    (s.host = .code (encode s.cfg.tsWidth .rxreset) :: rest →
      step s = andThen (txPhase Ports.quiet (State.begin { s with host := rest })) fun t =>
        andThen (exec .rxreset t) fun u => .next u.tick)

/-! ## The transmitter -/

/-- R121 (the spec's decision D9): what an accept loads and writes, and that it changes nothing else. -/
def Obligations.AcceptLoadsTheFrameAndWritesStart : Prop :=
  ∀ (v : Byte) (s : State), s.tx.seg = .idle →
    let w : Byte := v &&& BitVec.ofNat 8 (2 ^ s.cfg.dataBits.toNat - 1)
    exec (.tx v) s = .next { s with
      tx := {
        pin := false
        shift := if s.cfg.bitOrder = .lsb then w else w <<< (8 - s.cfg.dataBits.toNat)
        rem := s.cfg.dataBits
        par := (List.range 8).foldl (fun e i => e ^^ w.getLsbD i) false ^^ decide (s.cfg.parityMode = .odd)
        seg := .start
        cnt := s.cfg.cpb - 1
        excl := true }
      out := { s.out with wr := some ⟨false, s.cyc⟩ } }

/-- R67 (the spec's decision D8): the bits of the request above the word are ignored, parity included. -/
def Obligations.RequestBitsAboveTheWordAreIgnored : Prop :=
  ∀ (v v' : Byte) (s : State), (∀ i, i < s.cfg.dataBits.toNat → v.getLsbD i = v'.getLsbD i) →
    exec (.tx v) s = exec (.tx v') s

/-- R129 (D7): a refused request has no effect, and in a cycle of a frame in flight the request port has none. -/
def Obligations.RequestsDuringAFrameHaveNoEffect : Prop :=
  (∀ (v : Byte) (s : State), exec (.txRefused v) s = .next s) ∧
  (∀ (p : Ports) (w : BitVec 9) (s : State), s.tx.seg ≠ .idle → cycle { p with txreq := w } s = cycle p s)

/-- R120 (D9): in every step TX performs exactly one operation, selected by its own state and the request port. -/
def Obligations.OneTransmitterOperationAStep : Prop :=
  ∀ (p : Ports) (s : State),
    (s.tx.seg = .idle → p.txreq.getLsbD 8 = true → txPhase p s = exec (.tx (p.txreq.setWidth 8)) s) ∧
    (s.tx.seg = .idle → p.txreq.getLsbD 8 = false → txPhase p s = exec (.txidle (p.txreq.setWidth 8)) s) ∧
    (s.tx.seg ≠ .idle → s.tx.cnt ≠ 0 → txPhase p s = exec (.txhold p.txreq) s) ∧
    (s.tx.cnt = 0 → s.tx.seg = .start ∨ s.tx.seg = .data →
      (s.tx.rem ≠ 0 → txPhase p s = exec (.txdata p.txreq) s) ∧
      (s.tx.rem = 0 → s.cfg.parityMode ≠ .none → txPhase p s = exec (.txparity p.txreq) s) ∧
      (s.tx.rem = 0 → s.cfg.parityMode = .none → txPhase p s = exec (.txstop p.txreq) s)) ∧
    (s.tx.cnt = 0 → s.tx.seg = .parity → txPhase p s = exec (.txstop p.txreq) s) ∧
    (s.tx.cnt = 0 → s.tx.seg = .stop → txPhase p s = exec (.txend p.txreq) s)

/-- R134 and R123 (D9): the idle step, in a good state with the pin at 1 and the exclusive section released, and
the hold step. -/
def Obligations.IdleAndHoldSteps : Prop :=
  (∀ (x : Byte) (s : State), s.tx.seg = .idle →
    exec (.txidle x) s = .next { s with out := { s.out with wr := none } } ∧
    s.txReady = true ∧ (s.Inv → s.tx.pin = true ∧ s.tx.excl = false)) ∧
  (∀ (x : BitVec 9) (s : State), s.tx.seg ≠ .idle → s.tx.cnt ≠ 0 →
    exec (.txhold x) s = .next { s with
      tx := { s.tx with cnt := s.tx.cnt - 1 }, out := { s.out with wr := none } })

/-- R124 (D9): the level a data segment writes, and the registers it leaves; the i-th data segment of a frame, from
the register an accept loads, writes the data level i of R102 and R103. -/
def Obligations.DataSegmentShiftsAndWrites : Prop :=
  ∀ (x : BitVec 9) (s : State), s.tx.seg = .start ∨ s.tx.seg = .data → s.tx.cnt = 0 → s.tx.rem ≠ 0 →
    let l := if s.cfg.bitOrder = .lsb then s.tx.shift.getLsbD 0 else s.tx.shift.getLsbD 7
    exec (.txdata x) s = .next { s with
      tx := { s.tx with
        pin := l
        shift := if s.cfg.bitOrder = .lsb then s.tx.shift >>> 1 else s.tx.shift <<< 1
        rem := s.tx.rem - 1
        seg := .data
        cnt := s.cfg.cpb - 1 }
      out := { s.out with wr := some ⟨l, s.cyc⟩ } } ∧
    ∀ (v : Byte) (n i : Nat), n = s.cfg.dataBits.toNat → n ≤ 8 → i < n →
      let w : Byte := v &&& BitVec.ofNat 8 (2 ^ n - 1)
      s.tx.shift = (if s.cfg.bitOrder = .lsb then w >>> i else w <<< (8 - n) <<< i) →
      l = if s.cfg.bitOrder = .lsb then v.getLsbD i else v.getLsbD (n - 1 - i)

/-- R125 and R126 (D9): the parity segment writes `tx_par`, the stop segment writes 1. -/
def Obligations.ParityAndStopSegmentsWrite : Prop :=
  (∀ (x : BitVec 9) (s : State), s.tx.seg = .data → s.tx.cnt = 0 → s.tx.rem = 0 → s.cfg.parityMode ≠ .none →
    exec (.txparity x) s = .next { s with
      tx := { s.tx with seg := .parity, pin := s.tx.par, cnt := s.cfg.cpb - 1 }
      out := { s.out with wr := some ⟨s.tx.par, s.cyc⟩ } }) ∧
  (∀ (x : BitVec 9) (s : State),
    (s.tx.seg = .data ∧ s.tx.rem = 0 ∧ s.cfg.parityMode = .none) ∨ s.tx.seg = .parity → s.tx.cnt = 0 →
    exec (.txstop x) s = .next { s with
      tx := { s.tx with seg := .stop, pin := true, cnt := s.cfg.cpb - 1 }
      out := { s.out with wr := some ⟨true, s.cyc⟩ } })

/-- R127 (D9): the end of a frame writes no pin, produces no event and releases the exclusive section; in a good
state the pin is 1, and a request in that cycle is not accepted. -/
def Obligations.FrameEndReleasesTheExclusiveSection : Prop :=
  ∀ (x : BitVec 9) (s : State), s.tx.seg = .stop → s.tx.cnt = 0 →
    exec (.txend x) s = .next { s with
      tx := { s.tx with seg := .idle, excl := false }, out := { s.out with wr := none } } ∧
    (s.Inv → s.tx.pin = true) ∧
    ∀ (p : Ports) (t : State), p.por = false → cycle p s = .next t → t.txReady = true ∧ t.out.wr = none

/-- R33: every TX operation goes on, in every state, and leaves the configuration, the clock, the receiver, the
queue with every byte of its memory, and the host's lines alone. -/
def Obligations.TransmitterOperationsLeaveTheReceiver : Prop :=
  ∀ (i : Instr) (s : State) (W : Nat),
    (encode W i).fmt = .request ∨ (encode W i).fmt = .clock →
    ∃ t, exec i s = .next t ∧ TxFrame s t ∧ ∀ a, t.entry a = s.entry a

/-- Log 4 (the model's choice): an operation in a state that does not select it is not performed. -/
def Obligations.UnselectedOperationsAreNotPerformed : Prop :=
  (∀ (i : Instr) (s : State), onPort (encode s.cfg.tsWidth i).fmt = true → i.selectedBy s.select = false →
    exec i s = .next s) ∧
  (∀ (i : Instr) (s : State) (W : Nat), s.cfg.verify = false →
    (encode W i).fmt = .event ∨ (encode W i).fmt = .readStrobe ∨ (encode W i).fmt = .resetStrobe →
    exec i s = .next s)

/-! ## The receiver -/

/-- R151 and R152 (D12): a level-0 event in Idle starts a frame; a level-1 event changes no state at all. -/
def Obligations.EventsInIdle : Prop :=
  (∀ (ts : Nat) (s : State), s.cfg.verify = true → s.rx.state = .idle →
    exec (.evIdle0 ts) s = .next { s with rx := { s.rx with
      state := .inWord, rem := s.cfg.dataBits, acc := 0, prevTs := ts } }) ∧
  (∀ (ts : Nat) (s : State), exec (.evIdle1 ts) s = .next s)

/-- R154 (the check is R153's, D13): a data event on time is folded in, counted, and leads on when it was the last;
a mistimed one leads to Fault with the TimingGlitch that names its index. -/
def Obligations.DataEvent : Prop :=
  ∀ (l : Level) (ts : Nat) (s : State), s.cfg.verify = true → s.rx.state = .inWord →
    s.rx.prevTs < 2 ^ s.cfg.tsWidth →
    let elapsed := (ts + 2 ^ s.cfg.tsWidth - s.rx.prevTs) % 2 ^ s.cfg.tsWidth
    let acc := if s.cfg.bitOrder = .lsb then (s.rx.acc >>> 1) ||| (if l then 0x80 else 0)
      else (s.rx.acc <<< 1) ||| (if l then 1 else 0)
    (elapsed = s.cfg.cpb → exec (.evInword l ts) s = .next { s with rx := { s.rx with
      state := if s.rx.rem - 1 = 0 then (if s.cfg.parityMode = .none then .stopBit else .parityBit) else .inWord
      acc := acc, rem := s.rx.rem - 1, prevTs := ts } }) ∧
    (elapsed ≠ s.cfg.cpb → exec (.evInword l ts) s = .next { s with rx := {
      state := .fault, acc := acc, rem := s.rx.rem - 1, prevTs := ts
      diag := ⟨.timingGlitch, s.cfg.cpb, elapsed, s.cfg.dataBits - s.rx.rem⟩ } })

/-- R201 and R208 (D14, D15): an event of a frame whose distance from the one before is not CPB leaves RX in Fault
with a TimingGlitch that names the position, whatever its level and the stop policy; nothing is committed. -/
def Obligations.MistimedEventIsATimingGlitch : Prop :=
  ∀ (ts : Nat) (s : State), s.cfg.verify = true → s.rx.prevTs < 2 ^ s.cfg.tsWidth →
    let elapsed := (ts + 2 ^ s.cfg.tsWidth - s.rx.prevTs) % 2 ^ s.cfg.tsWidth
    let glitch (t : State) (pos : BitVec 4) : Prop :=
      RxFrame s t ∧ t.rx.state = .fault ∧ t.rx.diag = ⟨.timingGlitch, s.cfg.cpb, elapsed, pos⟩
    let p : BitVec 4 := if s.cfg.parityMode = .none then 0 else 1
    elapsed ≠ s.cfg.cpb →
      (∀ l, s.rx.state = .inWord →
        ∃ t, exec (.evInword l ts) s = .next t ∧ glitch t (s.cfg.dataBits - s.rx.rem)) ∧
      (∀ l, s.rx.state = .parityBit → ∃ t, exec (.evParity l ts) s = .next t ∧ glitch t s.cfg.dataBits) ∧
      (s.rx.state = .stopBit → ∃ t, exec (.evStop1 ts) s = .next t ∧ glitch t (s.cfg.dataBits + p)) ∧
      (s.rx.state = .stopBit → ∃ t, exec (.evStop0 ts) s = .next t ∧ glitch t (s.cfg.dataBits + p))

/-- R155 and R202 (D15, D16): on time, a parity event of the required level leads to StopBit, any other to Fault
with a ParityMismatch; a mistimed one leads to Fault with a TimingGlitch, whatever its level. -/
def Obligations.ParityEvent : Prop :=
  ∀ (l : Level) (ts : Nat) (s : State), s.cfg.verify = true → s.rx.state = .parityBit →
    s.rx.prevTs < 2 ^ s.cfg.tsWidth →
    let elapsed := (ts + 2 ^ s.cfg.tsWidth - s.rx.prevTs) % 2 ^ s.cfg.tsWidth
    let e := (List.range 8).foldl (fun e i => e ^^ s.rx.acc.getLsbD i) false
    let want := if s.cfg.parityMode = .even then e else !e
    (elapsed = s.cfg.cpb → exec (.evParity l ts) s = .next { s with rx := { s.rx with
      prevTs := ts
      state := if l = want then .stopBit else .fault
      diag := if l = want then s.rx.diag
        else ⟨.parityMismatch, if want then 1 else 0, if l then 1 else 0, s.cfg.dataBits⟩ } }) ∧
    (elapsed ≠ s.cfg.cpb → exec (.evParity l ts) s = .next { s with rx := { s.rx with
      prevTs := ts
      state := .fault
      diag := ⟨.timingGlitch, s.cfg.cpb, elapsed, s.cfg.dataBits⟩ } })

/-- R156 (its push is R43's, its realignment R162's): a good stop event on time returns RX to Idle; with room it
commits the realigned byte at the tail of the queue and writes no other byte, a full queue sets `q_overflow`. A
mistimed one leads to Fault with a TimingGlitch and commits nothing. -/
def Obligations.StopEventCommits : Prop :=
  ∀ (ts : Nat) (s : State), s.cfg.verify = true → s.rx.state = .stopBit →
    s.rx.prevTs < 2 ^ s.cfg.tsWidth → s.queue.head < s.cfg.queueCapacity →
    let elapsed := (ts + 2 ^ s.cfg.tsWidth - s.rx.prevTs) % 2 ^ s.cfg.tsWidth
    let tail := (s.queue.head + s.queue.count) % s.cfg.queueCapacity
    let pos := s.cfg.dataBits + if s.cfg.parityMode = .none then 0 else 1
    (elapsed = s.cfg.cpb →
      ∃ t, exec (.evStop1 ts) s = .next t ∧ CommitFrame s t ∧ t.rx = { s.rx with state := .idle, prevTs := ts } ∧
        (s.queue.count < s.cfg.queueCapacity →
          t.queue.head = s.queue.head ∧ t.queue.count = s.queue.count + 1 ∧
          t.queue.overflow = s.queue.overflow ∧
          t.entry tail =
            (if s.cfg.bitOrder = .lsb then s.rx.acc >>> (8 - s.cfg.dataBits.toNat) else s.rx.acc) ∧
          ∀ a, a ≠ tail → t.entry a = s.entry a) ∧
        (s.cfg.queueCapacity ≤ s.queue.count → t.queue.overflow = true)) ∧
    (elapsed ≠ s.cfg.cpb → exec (.evStop1 ts) s = .next { s with rx := { s.rx with
      prevTs := ts, state := .fault, diag := ⟨.timingGlitch, s.cfg.cpb, elapsed, pos⟩ } })

/-- R43 (D19), the push as the commit performs it: with room the byte goes to the tail; a full queue sets
`q_overflow`, leaves RX in Idle as if the push had succeeded, and loses the new byte or the oldest by the policy. -/
def Obligations.PushToTheQueue : Prop :=
  ∀ (ts : Nat) (s : State), s.cfg.verify = true → s.rx.state = .stopBit → s.onTime ts = true →
    s.queue.head < s.cfg.queueCapacity → s.queue.count ≤ s.cfg.queueCapacity →
    let v := if s.cfg.bitOrder = .lsb then s.rx.acc >>> (8 - s.cfg.dataBits.toNat) else s.rx.acc
    let tail := (s.queue.head + s.queue.count) % s.cfg.queueCapacity
    ∃ t, exec (.evStop1 ts) s = .next t ∧ CommitFrame s t ∧ t.rx.state = .idle ∧
      (s.queue.count < s.cfg.queueCapacity →
        t.queue.head = s.queue.head ∧ t.queue.count = s.queue.count + 1 ∧
        t.queue.overflow = s.queue.overflow ∧ t.entry tail = v ∧ ∀ a, a ≠ tail → t.entry a = s.entry a) ∧
      (s.queue.count = s.cfg.queueCapacity → t.queue.overflow = true ∧ t.queue.count = s.queue.count ∧
        (s.cfg.overflowPolicy = .dropNewest → t.queue.head = s.queue.head ∧ ∀ a, t.entry a = s.entry a) ∧
        (s.cfg.overflowPolicy = .overwriteOldest →
          t.queue.head = (s.queue.head + 1) % s.cfg.queueCapacity ∧ t.entry s.queue.head = v ∧
          ∀ a, a ≠ s.queue.head → t.entry a = s.entry a))

/-- R157 and R203 (D17): a stop event of level 0 on time does what RX_STOP0_POLICY says; a mistimed one leads to
Fault with a TimingGlitch under every policy. -/
def Obligations.StopEventOfLevelZero : Prop :=
  ∀ (ts : Nat) (s : State), s.cfg.verify = true → s.rx.state = .stopBit →
    s.rx.prevTs < 2 ^ s.cfg.tsWidth →
    let elapsed := (ts + 2 ^ s.cfg.tsWidth - s.rx.prevTs) % 2 ^ s.cfg.tsWidth
    let pos := s.cfg.dataBits + if s.cfg.parityMode = .none then 0 else 1
    (elapsed = s.cfg.cpb →
      (s.cfg.stop0Policy = .dropSilently →
        exec (.evStop0 ts) s = .next { s with rx := { s.rx with state := .idle, prevTs := ts } }) ∧
      (s.cfg.stop0Policy = .commitAnyway → exec (.evStop0 ts) s = exec (.evStop1 ts) s) ∧
      (s.cfg.stop0Policy = .framingFault →
        exec (.evStop0 ts) s = .next { s with rx := { s.rx with
          state := .fault, prevTs := ts, diag := ⟨.framingError, 1, 0, pos⟩ } })) ∧
    (elapsed ≠ s.cfg.cpb → exec (.evStop0 ts) s = .next { s with rx := { s.rx with
      prevTs := ts, state := .fault, diag := ⟨.timingGlitch, s.cfg.cpb, elapsed, pos⟩ } })

/-- R158 and R205: in Fault an event changes nothing, and no sequence of events does. -/
def Obligations.FaultIgnoresEveryEvent : Prop :=
  (∀ (l : Level) (ts : Nat) (s : State), exec (.evFault l ts) s = .next s) ∧
  (∀ (es : List Event) (s : State), s.rx.state = .fault → deliver es s = .next s)

/-- R159 (D21): the external reset clears the receiver and the diagnostic and nothing else, in any state; in a cycle
with it the cycle's event is discarded. -/
def Obligations.ReceiverResetClearsTheReceiver : Prop :=
  (∀ s : State, s.cfg.verify = true →
    exec .rxreset s = .next { s with rx := {
      state := .idle, acc := 0, rem := 0, prevTs := 0, diag := ⟨.none, 0, 0, 0⟩ } }) ∧
  (∀ (p : Ports) (s t : State), p.por = false → p.rxReset = true → s.cfg.verify = true → cycle p s = .next t →
    t.rx = { state := .idle, acc := 0, rem := 0, prevTs := 0, diag := ⟨.none, 0, 0, 0⟩ } ∧
    (p.rxRead = false → t.queue = s.queue))

/-- R160 and R42 (D20): a read answers the oldest entry and removes it; on an empty queue it answers (0, 0x00)
and changes nothing. -/
def Obligations.ReadAnswersTheOldestEntry : Prop :=
  ∀ s : State, s.cfg.verify = true →
    (s.queue.count = 0 → exec .rxread s = .next { s with out := { s.out with rd := some ⟨false, 0x00⟩ } }) ∧
    (s.queue.count ≠ 0 → s.queue.head < s.cfg.queueCapacity →
      exec .rxread s = .next { s with
        queue := { s.queue with
          head := (s.queue.head + 1) % s.cfg.queueCapacity, count := s.queue.count - 1 }
        out := { s.out with rd := some ⟨true, s.entry s.queue.head⟩ } })

/-- R213, R3: in a production instance no cycle but a power-on reset changes the receiver or the queue. -/
def Obligations.ProductionHasNoReceiver : Prop :=
  ∀ (p : Ports) (s t : State), s.cfg.verify = false → p.por = false → cycle p s = .next t →
    t.rx = s.rx ∧ t.queue = s.queue ∧ t.out.rd = none

/-- R206: a cycle without POR and without RXRESET leaves RX in Fault, with every register as it was; both resets go
to Idle and clear the diagnostic. -/
def Obligations.FaultEndsOnlyByReset : Prop :=
  ∀ (p : Ports) (s t : State), s.rx.state = .fault → s.cfg.verify = true → cycle p s = .next t →
    (p.por = false → p.rxReset = false → t.rx = s.rx) ∧
    (p.por = true ∨ p.rxReset = true → t.rx.state = .idle ∧ t.rx.diag = ⟨.none, 0, 0, 0⟩)

/-- R76, R48: in a state that meets the invariant a read's data has no bit above `dataBits`. -/
def Obligations.ReadDataIsRightAligned : Prop :=
  ∀ s : State, s.Inv → s.cfg.verify = true →
    ∃ t a, exec .rxread s = .next t ∧ t.out.rd = some a ∧ a.data.toNat < 2 ^ s.cfg.dataBits.toNat

/-! ## The queue -/

/-- R44: entries are read in the order they were committed; when the queue is full the new byte or the oldest is
the one lost. -/
def Obligations.QueueIsFirstInFirstOut : Prop :=
  ∀ s : State, QueueOk s.cfg s.queue → s.cfg.verify = true →
    (∀ a rest, s.queued = a :: rest →
      ∃ t, exec .rxread s = .next t ∧ t.out.rd = some ⟨true, a⟩ ∧ t.queued = rest) ∧
    (∀ ts, s.rx.state = .stopBit → s.onTime ts = true →
      let v := decoded s.cfg.bitOrder s.cfg.dataBits.toNat s.rx.acc
      ∃ t, exec (.evStop1 ts) s = .next t ∧
        (s.queue.count < s.cfg.queueCapacity → t.queued = s.queued ++ [v]) ∧
        (s.queue.count = s.cfg.queueCapacity → s.cfg.overflowPolicy = .dropNewest → t.queued = s.queued) ∧
        (s.queue.count = s.cfg.queueCapacity → s.cfg.overflowPolicy = .overwriteOldest →
          t.queued = s.queued.tail ++ [v]))

/-- R54 (D22): a step that carries both a read and a commit reads first: with a full queue the oldest entry is
answered, the new byte is kept and nothing overflows; with an empty queue the read answers rd_valid = 0 and the new
byte is there for a later read. The stop event is the bench's (R212), or TX's own write in that step on the wired
event port (R29). -/
def Obligations.ReadIsServedBeforeTheCommit : Prop :=
  ∀ (p : Ports) (ts : Nat) (s : State), s.Inv → s.cfg.verify = true → s.rx.state = .stopBit →
    p.por = false → p.rxRead = true → p.rxReset = false →
    p.evt = some (packEvt s.cfg.tsWidth true true ts) ∨
      (p.evt = none ∧ ts = s.cyc ∧ s.tx.cnt = 0 ∧
        (s.tx.seg = .parity ∨ (s.tx.seg = .data ∧ s.tx.rem = 0 ∧ s.cfg.parityMode = .none))) →
    s.onTime ts = true → ts < s.cfg.tsMod →
    let v := decoded s.cfg.bitOrder s.cfg.dataBits.toNat s.rx.acc
    (s.queue.count = s.cfg.queueCapacity →
      ∃ t a rest, cycle p s = .next t ∧ s.queued = a :: rest ∧ t.out.rd = some ⟨true, a⟩ ∧
        t.queued = rest ++ [v] ∧ t.queue.overflow = s.queue.overflow) ∧
    (s.queue.count = 0 →
      ∃ t, cycle p s = .next t ∧ t.out.rd = some ⟨false, 0x00⟩ ∧ t.queued = [v] ∧
        t.queue.overflow = s.queue.overflow)

/-! ## Reset and configuration -/

/-- The values of R230 and R31 (D23) after power-on reset, in any state. That the lines, the driven ports, `running`
and the observer's record stay, and that a cycle with the reset input serves nothing else, a read included, is log 8
(the model's choice). -/
def Obligations.PowerOnResetsEveryElement : Prop :=
  ∀ s : State,
    (∃ t, exec .por s = .next t ∧
      t.cyc = 0 ∧
      t.tx = { pin := true, shift := 0, rem := 0, par := false, seg := .idle, cnt := 0, excl := false } ∧
      t.rx = { state := .idle, acc := 0, rem := 0, prevTs := 0, diag := ⟨.none, 0, 0, 0⟩ } ∧
      t.queue.head = 0 ∧ t.queue.count = 0 ∧ t.queue.overflow = false ∧ t.out.wr = none ∧
      t.txReady = true ∧ t.cfg = s.cfg ∧ t.running = s.running ∧ t.inp = s.inp ∧ t.obs = s.obs ∧
      t.host = s.host) ∧
    ∀ p : Ports, p.por = true → cycle p s = exec .por s.begin

/-- The count of R90 (D5) and the errors of R91. That CPB acts before the first cycle is log 3, and that it stores the
pair beside the count, with the pair standing beside the word, is log 9 (the model's choice): CPB of a supported pair
stores round(f / b), ties upward, and changes nothing else than the pair and the count; a pair that is not listed, or
whose count is 0 or does not fit, is a configuration error. On a running instance see
RunningConfigurationIsFixed. -/
def Obligations.ConfigurationTimeCount : Prop :=
  ∀ (f b : Nat) (s : State), s.running = false → 0 < f → 0 < b →
    let c := (2 * f + b) / (2 * b)
    ((∃ e ∈ s.cfg.timingTable, e.clockFrequency = f ∧ e.baudRate = b) →
      1 ≤ c → c < 2 ^ s.cfg.cpbWidth → c < 2 ^ s.cfg.tsWidth →
      exec (.cpb f b) s = .next { s with cfg := { s.cfg with clockFrequency := f, baudRate := b, cpb := c } }) ∧
    ((∀ e ∈ s.cfg.timingTable, e.clockFrequency ≠ f ∨ e.baudRate ≠ b) ∨
        c = 0 ∨ 2 ^ s.cfg.cpbWidth ≤ c ∨ 2 ^ s.cfg.tsWidth ≤ c →
      exec (.cpb f b) s = .refused .configurationError)

/-- R66, R71 (D4; configuration time is log 3): before the first cycle a legal configuration word sets the three
fields, an illegal one is a configuration error. -/
def Obligations.ConfigurationWordSetsTheFields : Prop :=
  ∀ (p : BitVec 2) (o : BitVec 1) (b : BitVec 4) (s : State), s.running = false →
    (p.toNat ≠ 3 → 1 ≤ b.toNat → b.toNat ≤ 8 →
      exec (.fmtCfgw p o b) s = .next { s with cfg := { s.cfg with
        dataBits := b
        bitOrder := if o.toNat = 0 then .lsb else .msb
        parityMode := if p.toNat = 0 then .none else if p.toNat = 1 then .even else .odd } }) ∧
    (p.toNat = 3 ∨ b.toNat = 0 ∨ 8 < b.toNat → exec (.fmtCfgw p o b) s = .refused .configurationError)

/-- Once the instance runs (`running` is log 3, the model's choice of what R10 and R236 call initialisation), CPB and
the configuration word have no effect at all (log 3), and no step changes the configuration or ends the running. -/
def Obligations.RunningConfigurationIsFixed : Prop :=
  ∀ s : State, s.running = true →
    (∀ f b, exec (.cpb f b) s = .next s) ∧
    (∀ p o b, exec (.fmtCfgw p o b) s = .next s) ∧
    ∀ t, step s = .next t → t.cfg = s.cfg ∧ t.running = true

/-- R91 and R210 (D6): a configuration whose pair is not listed, whose table has a triple with another count than
R90's, or whose other fields are illegal has no step: the machine refuses it. -/
def Obligations.InvalidConfigurationHasNoStep : Prop :=
  ∀ s : State,
    (∀ e ∈ s.cfg.timingTable,
        e.clockFrequency ≠ s.cfg.clockFrequency ∨ e.baudRate ≠ s.cfg.baudRate) ∨
      (∃ e ∈ s.cfg.timingTable,
        e.cyclesPerBit ≠ (2 * e.clockFrequency + e.baudRate) / (2 * e.baudRate)) ∨
      s.cfg.cpb ≠ (2 * s.cfg.clockFrequency + s.cfg.baudRate) / (2 * s.cfg.baudRate) ∨
      s.cfg.cpb = 0 ∨ 2 ^ s.cfg.cpbWidth ≤ s.cfg.cpb ∨ 2 ^ s.cfg.tsWidth ≤ s.cfg.cpb ∨
      s.cfg.dataBits.toNat = 0 ∨ 8 < s.cfg.dataBits.toNat ∨ s.cfg.queueCapacity = 0 →
    step s = .refused .configurationError

/-! ## The word encoder -/

/-- The levels of R100 to R105. That ENCODE reads the fields of its own word and leaves the list in the observer's
record is log 13 (the model's choice): legal fields give start, data in the configured order, parity where
configured, stop, and change nothing of the block; an illegal field is a configuration error (R71). -/
def Obligations.EncodeGivesTheFrame : Prop :=
  ∀ (v : Byte) (p : BitVec 2) (o : BitVec 1) (b : BitVec 4) (s : State),
    let n := b.toNat
    let data := (List.range n).map fun i => if o.toNat = 0 then v.getLsbD i else v.getLsbD (n - 1 - i)
    let e := (List.range n).foldl (fun e i => e ^^ v.getLsbD i) false
    let parity := if p.toNat = 0 then [] else if p.toNat = 1 then [e] else [!e]
    (p.toNat ≠ 3 → 1 ≤ n → n ≤ 8 →
      exec (.encode v p o b) s = .next { s with obs := { s.obs with
        levels := [false] ++ data ++ parity ++ [true] } }) ∧
    (p.toNat = 3 ∨ n = 0 ∨ 8 < n → exec (.encode v p o b) s = .refused .configurationError)

/-- R108 and R109: a frame has 1 + n + P + 1 levels, and under Even the ones among its data and parity levels are
even in number, under Odd odd. -/
def Obligations.FrameLengthAndParityLaws : Prop :=
  ∀ (v : Byte) (n : Nat) (o : BitOrder) (pm : ParityMode), n ≤ 8 →
    let ls := frameLevels v n o pm
    ls.length = 1 + n + (if pm = .none then 0 else 1) + 1 ∧
    (pm = .even → (ls.tail.dropLast.count true) % 2 = 0) ∧
    (pm = .odd → (ls.tail.dropLast.count true) % 2 = 1)

/-- R106 (D8): two values with the same low `dataBits` bits have the same frame. -/
def Obligations.ValuesOfOneWordHaveOneFrame : Prop :=
  ∀ (v v' : Byte) (p : BitVec 2) (o : BitVec 1) (b : BitVec 4) (s : State),
    (∀ i, i < b.toNat → v.getLsbD i = v'.getLsbD i) →
    exec (.encode v p o b) s = exec (.encode v' p o b) s

/-! ## Host notation -/

/-- R190 and R191: PRINT expands into one blocking TX a byte, PRINTLN adds the line terminator (the expansion as
lines is log 12). -/
def Obligations.PrintExpandsIntoTxLines : Prop :=
  ∀ (x : BitVec 9) (bs : List Byte) (s : State),
    exec (.print x bs) s = .next { s with host := bs.map Line.tx ++ s.host } ∧
    exec (.println x bs) s = .next { s with
      host := (bs ++ s.cfg.lineTerminator).map Line.tx ++ s.host }

/-- R73 (D9): a blocking `TX v` that starts with tx_ready = 1 takes N * CPB + 1 steps, after which tx_ready is 1
again and the line is over (only its `await` remains, which takes no step). -/
def Obligations.BlockingTxTakesOneFrameAndOneStep : Prop :=
  ∀ (v : Byte) (rest : List Line) (s : State), s.Inv → s.tx.seg = .idle → s.inp = Ports.quiet →
    s.host = .tx v :: rest →
    ∃ t, Host.Core.run Sys2Proof.core (s.cfg.segments * s.cfg.cpb + 1) s = .next t ∧
      t.txReady = true ∧ t.host = .await :: rest ∧
      t.cyc = (s.cyc + s.cfg.segments * s.cfg.cpb + 1) % s.cfg.tsMod

/-! ## Layouts -/

/-- R67 and R68 (driving a port by its word is log 10): the fields of TXREQ and EVT on the input ports. -/
def Obligations.InputPortLayouts : Prop :=
  (∀ (e : Bool) (v : Byte) (s : State), ∃ w : BitVec 9,
    exec (.fmtTxreq e v) s = .next { s with inp := { s.inp with txreq := w } } ∧
    w.toNat = (if e then 256 else 0) + v.toNat) ∧
  (∀ (e : Bool) (l : Level) (ts : Nat) (s : State), ts < 2 ^ s.cfg.tsWidth → ∃ w : Nat,
    exec (.fmtEvt e l ts) s = .next { s with inp := { s.inp with evt := some w } } ∧
    w = (if e then 2 ^ (s.cfg.tsWidth + 1) else 0) + (if l then 2 ^ s.cfg.tsWidth else 0) + ts)

/-- R76 and R69 (the observer's record is log 10): the fields of RD and of the diagnostic register as they are
read, which changes nothing of the block. -/
def Obligations.OutputLayouts : Prop :=
  (∀ (e : Bool) (v : Byte) (a : Answer) (s : State), s.out.rd = some a → ∃ w : BitVec 9,
    exec (.fmtRd e v) s = .next { s with obs := { s.obs with rd := w } } ∧
    w.toNat = (if a.valid then 256 else 0) + a.data.toNat) ∧
  (∀ (e : Bool) (v : Byte) (s : State), s.out.rd = none →
    exec (.fmtRd e v) s = .next { s with obs := { s.obs with rd := 0 } }) ∧
  (∀ (a e : Nat) (p : BitVec 4) (k : BitVec 2) (s : State),
    s.rx.diag.expected < 2 ^ s.cfg.tsWidth → ∃ w : Nat,
    exec (.fmtDiag a e p k) s = .next { s with obs := { s.obs with diag := w } } ∧
    w % 4 = s.rx.diag.kind.code.toNat ∧
    w / 4 % 16 = s.rx.diag.position.toNat ∧
    w / 64 % 2 ^ s.cfg.tsWidth = s.rx.diag.expected ∧
    w / 64 / 2 ^ s.cfg.tsWidth = s.rx.diag.actual)

/-! ## Frame formats -/

/-- What a frame format's operation does on a valid instance (R62, R130, R212; log 11): where the row's
condition holds and the parity level is the right one it is TX's request for a value whose frame has exactly
these levels; else it is the bench's events of exactly these levels on the event port, the first at `cyc`, each CPB
cycles after the one before (R61). Everything but the pending lines stays. -/
def FrameGoesOnTheLine (i : Instr) (ds : List Level) (p : Option Level) : Prop :=
  ∀ s : State, s.cfg.valid = true →
    let levels := [false] ++ ds ++ p.toList ++ [true]
    ((∃ v, s.cfg.dataBits.toNat = ds.length ∧ frameOf s.cfg v = levels) →
      ∃ v, frameOf s.cfg v = levels ∧ exec i s = .next { s with host := .tx v :: s.host }) ∧
    ((¬ ∃ v, s.cfg.dataBits.toNat = ds.length ∧ frameOf s.cfg v = levels) →
      exec i s = .next { s with host :=
        (levels.mapIdx fun k l => [Line.ev l ((s.cyc + k * s.cfg.cpb) % 2 ^ s.cfg.tsWidth),
          Line.hold (s.cfg.cpb - 1)]).flatten ++ s.host })

/-- R62: the sixteen frame formats. -/
def Obligations.FrameFormatsGoOnTheLine : Prop :=
  (∀ d : BitVec 1, FrameGoesOnTheLine (.frame1n d) (levelsOf d) none) ∧
  (∀ d : BitVec 2, FrameGoesOnTheLine (.frame2n d) (levelsOf d) none) ∧
  (∀ d : BitVec 3, FrameGoesOnTheLine (.frame3n d) (levelsOf d) none) ∧
  (∀ d : BitVec 4, FrameGoesOnTheLine (.frame4n d) (levelsOf d) none) ∧
  (∀ d : BitVec 5, FrameGoesOnTheLine (.frame5n d) (levelsOf d) none) ∧
  (∀ d : BitVec 6, FrameGoesOnTheLine (.frame6n d) (levelsOf d) none) ∧
  (∀ d : BitVec 7, FrameGoesOnTheLine (.frame7n d) (levelsOf d) none) ∧
  (∀ d : BitVec 8, FrameGoesOnTheLine (.frame8n d) (levelsOf d) none) ∧
  (∀ (d : BitVec 1) p, FrameGoesOnTheLine (.frame1p d p) (levelsOf d) (some p)) ∧
  (∀ (d : BitVec 2) p, FrameGoesOnTheLine (.frame2p d p) (levelsOf d) (some p)) ∧
  (∀ (d : BitVec 3) p, FrameGoesOnTheLine (.frame3p d p) (levelsOf d) (some p)) ∧
  (∀ (d : BitVec 4) p, FrameGoesOnTheLine (.frame4p d p) (levelsOf d) (some p)) ∧
  (∀ (d : BitVec 5) p, FrameGoesOnTheLine (.frame5p d p) (levelsOf d) (some p)) ∧
  (∀ (d : BitVec 6) p, FrameGoesOnTheLine (.frame6p d p) (levelsOf d) (some p)) ∧
  (∀ (d : BitVec 7) p, FrameGoesOnTheLine (.frame7p d p) (levelsOf d) (some p)) ∧
  (∀ (d : BitVec 8) p, FrameGoesOnTheLine (.frame8p d p) (levelsOf d) (some p))

/-! ## The whole machine -/

/-- R31 (D23): what reset leaves, of the elements the spec gives a reset value, and the column of RXRESET: the
receiver's registers, every other element unchanged. -/
def Obligations.ResetState : Prop :=
  (State.reset.cyc = 0 ∧
    State.reset.tx = { pin := true, shift := 0, rem := 0, par := false, seg := .idle, cnt := 0, excl := false } ∧
    State.reset.rx = { state := .idle, acc := 0, rem := 0, prevTs := 0, diag := ⟨.none, 0, 0, 0⟩ } ∧
    State.reset.queue.head = 0 ∧ State.reset.queue.count = 0 ∧ State.reset.queue.overflow = false ∧
    State.reset.out.wr = none) ∧
  (∀ s : State, ∃ t, exec .por s = .next t ∧ t.cyc = State.reset.cyc ∧ t.tx = State.reset.tx ∧
    t.rx = State.reset.rx ∧ t.queue.head = 0 ∧ t.queue.count = 0 ∧ t.queue.overflow = false ∧
    t.cfg = s.cfg ∧ t.out.wr = none) ∧
  (∀ s : State, s.cfg.verify = true → ∃ t, exec .rxreset s = .next t ∧ t.rx = State.reset.rx ∧
    t.cyc = s.cyc ∧ t.tx = s.tx ∧ t.queue = s.queue ∧ t.cfg = s.cfg)

/-- The invariant holds at reset (its configuration is log 2). -/
def Obligations.ResetMeetsTheInvariant : Prop := State.reset.Inv

/-- Every step keeps the invariant (R14 to R34, R40, R41): counters in range, the accumulator's padding, the
diagnostic exactly in Fault, the queue's memory in canonical form with every valid entry written, the
exclusive section exactly while a frame is in flight. -/
def Obligations.StepKeepsTheInvariant : Prop :=
  ∀ s t : State, s.Inv → step s = .next t → t.Inv

/-- R8: the block never halts: from a good state every cycle goes on, whatever the ports carry, and so does every
step while the pending lines drive ports only. -/
def Obligations.TheBlockNeverHalts : Prop :=
  ∀ s : State, s.Inv →
    (∀ p : Ports, ∃ t, cycle p s = .next t) ∧
    ((∀ c, Line.code c ∉ s.host) → ∃ t, step s = .next t)

/-- R130: the trace of one frame. The request accepted, every later cycle goes on whatever the ports carry (but
POR), and after `ps.length` cycles more the pin, the event, `tx_ready` and `excl` are those of the frame. -/
def Obligations.TraceOfOneFrame : Prop :=
  ∀ (s : State) (v : Byte) (p : Ports) (ps : List Ports), s.Inv → s.tx.seg = .idle →
    p.por = false → p.txreq = pack9 true v → (∀ q ∈ ps, q.por = false) →
    let L := frameOf s.cfg v
    let k := ps.length / s.cfg.cpb
    ps.length ≤ L.length * s.cfg.cpb →
    ∃ t, cycles (p :: ps) s = .next t ∧ t.cyc = (s.cyc + ps.length + 1) % s.cfg.tsMod ∧
      (ps.length < L.length * s.cfg.cpb →
        t.txReady = false ∧ t.tx.excl = true ∧ some t.tx.pin = L[k]? ∧
        t.out.wr = if ps.length % s.cfg.cpb = 0
          then some ⟨t.tx.pin, (s.cyc + ps.length) % s.cfg.tsMod⟩ else none) ∧
      (ps.length = L.length * s.cfg.cpb →
        t.txReady = true ∧ t.tx.excl = false ∧ t.tx.pin = true ∧ t.out.wr = none)

/-- R131, R33: TX does not depend on the receiver: of two states that agree on the configuration, TX and the
clock, a cycle with the same request leaves the same TX, event and clock. -/
def Obligations.TransmitterIgnoresTheReceiver : Prop :=
  ∀ (p q : Ports) (s u s' u' : State), s.cfg = u.cfg → s.tx = u.tx → s.cyc = u.cyc →
    p.por = false → q.por = false → p.txreq = q.txreq →
    cycle p s = .next s' → cycle q u = .next u' →
    s'.tx = u'.tx ∧ s'.out.wr = u'.out.wr ∧ s'.cyc = u'.cyc

/-- R161: the round trip. The events of a frame, from a receiver in Idle with room in the queue, never lead to
Fault, end in Idle and commit exactly the word sent. -/
def Obligations.RoundTrip : Prop :=
  ∀ (s : State) (v : Byte) (t0 : Nat), s.cfg.valid = true → s.cfg.verify = true → s.rx.state = .idle →
    s.queue.count < s.cfg.queueCapacity →
    let es := frameEvents s.cfg v t0
    let tail := (s.queue.head + s.queue.count) % s.cfg.queueCapacity
    (∀ k, ∃ u, deliver (es.take k) s = .next u ∧ u.rx.state ≠ .fault) ∧
    ∃ t, deliver es s = .next t ∧ t.rx.state = .idle ∧ t.rx.diag = s.rx.diag ∧ CommitFrame s t ∧
      t.queue.head = s.queue.head ∧ t.queue.count = s.queue.count + 1 ∧ t.queue.overflow = s.queue.overflow ∧
      (∀ i, i < 8 → (t.entry tail).getLsbD i = (decide (i < s.cfg.dataBits.toNat) && v.getLsbD i)) ∧
      ∀ a, a ≠ tail → t.entry a = s.entry a

/-- R163(a): of the events of a frame one timestamp after the first is changed; RX ends in Fault with a
TimingGlitch at that event's index minus 1, and nothing is committed. -/
def Obligations.JitterIsDetected : Prop :=
  ∀ (s : State) (v : Byte) (t0 k ts : Nat), s.cfg.valid = true → s.cfg.verify = true → s.rx.state = .idle →
    1 ≤ k → k < s.cfg.segments → ts < s.cfg.tsMod → ts ≠ (t0 + k * s.cfg.cpb) % s.cfg.tsMod →
    ∃ t, deliver ((frameEvents s.cfg v t0).mapIdx fun j e => if j = k then { e with ts := ts } else e) s
        = .next t ∧
      t.rx.state = .fault ∧ t.rx.diag.kind = .timingGlitch ∧ t.rx.diag.expected = s.cfg.cpb ∧
      t.rx.diag.position.toNat = k - 1 ∧ RxFrame s t

/-- R163(b): the parity level inverted and nothing else; RX ends in Fault with a ParityMismatch that expects the
original level, and nothing is committed. -/
def Obligations.FlippedParityIsDetected : Prop :=
  ∀ (s : State) (v : Byte) (t0 : Nat), s.cfg.valid = true → s.cfg.verify = true → s.rx.state = .idle →
    s.cfg.parityMode ≠ .none →
    let l := parityLevel v s.cfg.dataBits.toNat s.cfg.parityMode
    ∃ t, deliver ((frameEvents s.cfg v t0).mapIdx fun j e =>
        if j = s.cfg.dataBits.toNat + 1 then { e with level := !e.level } else e) s = .next t ∧
      t.rx.state = .fault ∧
      t.rx.diag = ⟨.parityMismatch, if l then 1 else 0, if l then 0 else 1, s.cfg.dataBits⟩ ∧ RxFrame s t

/-- R163(c): one data level inverted and nothing else. Under Even or Odd parity RX ends in Fault with a
ParityMismatch; under None it is not detected and the byte with that bit inverted is committed. -/
def Obligations.FlippedDataLevel : Prop :=
  ∀ (s : State) (v : Byte) (t0 k : Nat), s.cfg.valid = true → s.cfg.verify = true → s.rx.state = .idle →
    k < s.cfg.dataBits.toNat →
    let es := (frameEvents s.cfg v t0).mapIdx fun j e => if j = k + 1 then { e with level := !e.level } else e
    let tail := (s.queue.head + s.queue.count) % s.cfg.queueCapacity
    let bit := if s.cfg.bitOrder = .lsb then k else s.cfg.dataBits.toNat - 1 - k
    (s.cfg.parityMode ≠ .none →
      ∃ t, deliver es s = .next t ∧ t.rx.state = .fault ∧ t.rx.diag.kind = .parityMismatch ∧ RxFrame s t) ∧
    (s.cfg.parityMode = .none → s.queue.count < s.cfg.queueCapacity →
      ∃ t, deliver es s = .next t ∧ t.rx.state = .idle ∧ t.queue.count = s.queue.count + 1 ∧
        ∀ i, i < 8 → (t.entry tail).getLsbD i =
          (decide (i < s.cfg.dataBits.toNat) && (v.getLsbD i ^^ decide (i = bit))))

/-- R130, R161, R50: from end to end. A request accepted by an idle block whose receiver is idle and wired to it
ends, N * CPB cycles later, with the word at the end of the queue, whatever the host requests meanwhile. -/
def Obligations.SentWordReachesTheQueue : Prop :=
  ∀ (s : State) (v : Byte) (p : Ports) (ps : List Ports), s.Inv → s.cfg.verify = true →
    s.tx.seg = .idle → s.rx.state = .idle → s.queue.count < s.cfg.queueCapacity →
    p.txreq = pack9 true v →
    (∀ q ∈ p :: ps, q.por = false ∧ q.rxReset = false ∧ q.rxRead = false ∧ q.evt = none) →
    ps.length = s.cfg.segments * s.cfg.cpb →
    ∃ t, cycles (p :: ps) s = .next t ∧ t.txReady = true ∧ t.rx.state = .idle ∧
      t.queue.overflow = s.queue.overflow ∧
      t.queued = s.queued ++ [v &&& BitVec.ofNat 8 (2 ^ s.cfg.dataBits.toNat - 1)]

/-- R50, R29: in a verification build's cycle with nothing else on the receiver's ports, RX is given TX's pin
writes, one for one, with their level and timestamp, in the step of the write. -/
def Obligations.ReceiverSeesEveryPinWrite : Prop :=
  ∀ (p : Ports) (s : State), p.por = false → p.rxRead = false → p.rxReset = false → p.evt = none →
    cycle p s = andThen (txPhase p s.begin) fun t => andThen (deliver t.out.wr.toList t) fun u => .next u.tick

/-- R11 and R12 (D2): every cycle but a power-on reset adds 1 to `cyc`; the pin changes only with a write, and a
write's event carries the pin's new level and the cycle's number; from a good state the pin is 1 whenever no frame is
in flight. -/
def Obligations.ClockAndPinWrites : Prop :=
  ∀ (p : Ports) (s t : State), p.por = false → cycle p s = .next t →
    t.cyc = (s.cyc + 1) % 2 ^ s.cfg.tsWidth ∧
    (t.out.wr = none → t.tx.pin = s.tx.pin) ∧
    (∀ e, t.out.wr = some e → e = ⟨t.tx.pin, s.cyc⟩) ∧
    (s.Inv → t.tx.seg = .idle → t.tx.pin = true)

/-- R128, R18, R19 (D10): in a good state the host's preemption is what the host itself set it to exactly while
no frame is in flight, and off during a frame. -/
def Obligations.PreemptionIsHeldOffDuringAFrame : Prop :=
  ∀ (s : State) (hostPe : Bool), s.Inv → s.preemptible hostPe = (hostPe && s.txReady)
end

