-- ==== Sys2Proof/Laws/Codec.lean ====
section
/-! SUPPORT. The words of the ports and what their fields read back as (30_encoding R66 to R69, R76). -/

namespace Sys2Proof

@[simp] theorem valid9_pack9 (e : Bool) (v : Byte) : valid9 (pack9 e v) = e := by
  revert e v; decide +kernel

@[simp] theorem byte9_pack9 (e : Bool) (v : Byte) : byte9 (pack9 e v) = v := by
  revert e v; decide +kernel

theorem pack9_fields (w : BitVec 9) : pack9 (valid9 w) (byte9 w) = w := by
  revert w; decide +kernel

theorem levelNat_lt (l : Level) : levelNat l < 2 := by cases l <;> decide

@[simp] theorem evtTs_packEvt (W : Nat) (e : Bool) (l : Level) (ts : Nat) :
    evtTs W (packEvt W e l ts) = ts % 2 ^ W := by
  simp [evtTs, packEvt]

@[simp] theorem packEvt_div (W : Nat) (e : Bool) (l : Level) (ts : Nat) :
    packEvt W e l ts / 2 ^ W = levelNat e * 2 + levelNat l := by
  have h : 0 < 2 ^ W := Nat.two_pow_pos W
  rw [packEvt, Nat.add_comm, Nat.add_mul_div_right _ _ h, Nat.div_eq_of_lt (Nat.mod_lt _ h), Nat.zero_add]

@[simp] theorem evtLevel_packEvt (W : Nat) (e : Bool) (l : Level) (ts : Nat) :
    evtLevel W (packEvt W e l ts) = l := by
  cases e <;> cases l <;> simp [evtLevel, levelNat]

@[simp] theorem evtValid_packEvt (W : Nat) (e : Bool) (l : Level) (ts : Nat) :
    evtValid W (packEvt W e l ts) = e := by
  cases e <;> cases l <;> simp [evtValid, levelNat]

theorem packEvt_lt (W : Nat) (e : Bool) (l : Level) (ts : Nat) : packEvt W e l ts < 2 ^ (W + 2) := by
  have h : ts % 2 ^ W < 2 ^ W := Nat.mod_lt _ (Nat.two_pow_pos W)
  have hp : 2 ^ (W + 2) = 4 * 2 ^ W := by rw [pow_add]; ring
  rw [hp, packEvt]
  cases e <;> cases l <;> simp [levelNat] <;> omega

theorem packDiag_lt (W a e : Nat) (p : BitVec 4) (k : BitVec 2) (ha : a < 2 ^ W) (he : e < 2 ^ W) :
    packDiag W a e p k < 2 ^ (6 + 2 * W) := by
  have hp : 2 ^ (6 + 2 * W) = 64 * (2 ^ W * 2 ^ W) := by
    rw [pow_add, Nat.mul_comm 2 W, pow_mul, sq]; norm_num
  have h1 : a * 2 ^ W + e < 2 ^ W * 2 ^ W := by nlinarith
  have h2 := p.isLt
  have h3 := k.isLt
  rw [hp, packDiag]
  omega

theorem packCfgw_lt (p : BitVec 2) (o : BitVec 1) (b : BitVec 4) : packCfgw p o b < 128 := by
  have h1 := p.isLt
  have h2 := o.isLt
  have h3 := b.isLt
  simp only [packCfgw]
  omega

theorem packFrame_lt {n : Nat} (d : BitVec n) : packFrame d < 2 ^ (n + 1) := by
  have h := d.isLt
  rw [packFrame, pow_succ]
  omega

theorem packFrameP_lt {n : Nat} (d : BitVec n) (p : Level) : packFrameP d p < 2 ^ (n + 2) := by
  have h := d.isLt
  have hp : 2 ^ (n + 2) = 4 * 2 ^ n := by rw [pow_add]; ring
  rw [packFrameP, hp]
  cases p <;> simp [levelNat] <;> omega

end Sys2Proof
end

