-- ==== Sys2Proof/Laws/State.lean ====
section
/-! SUPPORT. Each update of the state, field by field: what it writes and what it leaves. All hold by rfl. -/

namespace Sys2Proof.Machine

variable (s : State)

/-! ### noWrite -/

@[simp] theorem State.noWrite_cfg : (s.noWrite).cfg = s.cfg := rfl
@[simp] theorem State.noWrite_running : (s.noWrite).running = s.running := rfl
@[simp] theorem State.noWrite_cyc : (s.noWrite).cyc = s.cyc := rfl
@[simp] theorem State.noWrite_tx : (s.noWrite).tx = s.tx := rfl
@[simp] theorem State.noWrite_rx : (s.noWrite).rx = s.rx := rfl
@[simp] theorem State.noWrite_queue : (s.noWrite).queue = s.queue := rfl
@[simp] theorem State.noWrite_epoch : (s.noWrite).epoch = s.epoch := rfl
@[simp] theorem State.noWrite_inp : (s.noWrite).inp = s.inp := rfl
@[simp] theorem State.noWrite_out : (s.noWrite).out = { s.out with wr := none } := rfl
@[simp] theorem State.noWrite_obs : (s.noWrite).obs = s.obs := rfl
@[simp] theorem State.noWrite_host : (s.noWrite).host = s.host := rfl

/-! ### emit -/

@[simp] theorem State.emit_cfg (l : Level) : (s.emit l).cfg = s.cfg := rfl
@[simp] theorem State.emit_running (l : Level) : (s.emit l).running = s.running := rfl
@[simp] theorem State.emit_cyc (l : Level) : (s.emit l).cyc = s.cyc := rfl
@[simp] theorem State.emit_tx (l : Level) : (s.emit l).tx = { s.tx with pin := l, cnt := s.cfg.cpb - 1 } := rfl
@[simp] theorem State.emit_rx (l : Level) : (s.emit l).rx = s.rx := rfl
@[simp] theorem State.emit_queue (l : Level) : (s.emit l).queue = s.queue := rfl
@[simp] theorem State.emit_epoch (l : Level) : (s.emit l).epoch = s.epoch := rfl
@[simp] theorem State.emit_inp (l : Level) : (s.emit l).inp = s.inp := rfl
@[simp] theorem State.emit_out (l : Level) : (s.emit l).out = { s.out with wr := some ⟨l, s.cyc⟩ } := rfl
@[simp] theorem State.emit_obs (l : Level) : (s.emit l).obs = s.obs := rfl
@[simp] theorem State.emit_host (l : Level) : (s.emit l).host = s.host := rfl

/-! ### load -/

@[simp] theorem State.load_cfg (v : Byte) : (s.load v).cfg = s.cfg := rfl
@[simp] theorem State.load_running (v : Byte) : (s.load v).running = s.running := rfl
@[simp] theorem State.load_cyc (v : Byte) : (s.load v).cyc = s.cyc := rfl
@[simp] theorem State.load_tx (v : Byte) : (s.load v).tx =
    { s.tx with
      shift := alignTx s.cfg.bitOrder s.cfg.bits (wordOf s.cfg.bits v)
      rem := s.cfg.dataBits
      par := parityLevel v s.cfg.bits s.cfg.parityMode
      seg := .start
      excl := true } := rfl
@[simp] theorem State.load_rx (v : Byte) : (s.load v).rx = s.rx := rfl
@[simp] theorem State.load_queue (v : Byte) : (s.load v).queue = s.queue := rfl
@[simp] theorem State.load_epoch (v : Byte) : (s.load v).epoch = s.epoch := rfl
@[simp] theorem State.load_inp (v : Byte) : (s.load v).inp = s.inp := rfl
@[simp] theorem State.load_out (v : Byte) : (s.load v).out = s.out := rfl
@[simp] theorem State.load_obs (v : Byte) : (s.load v).obs = s.obs := rfl
@[simp] theorem State.load_host (v : Byte) : (s.load v).host = s.host := rfl

/-! ### toSeg -/

@[simp] theorem State.toSeg_cfg (g : TxSeg) : (s.toSeg g).cfg = s.cfg := rfl
@[simp] theorem State.toSeg_running (g : TxSeg) : (s.toSeg g).running = s.running := rfl
@[simp] theorem State.toSeg_cyc (g : TxSeg) : (s.toSeg g).cyc = s.cyc := rfl
@[simp] theorem State.toSeg_tx (g : TxSeg) : (s.toSeg g).tx = { s.tx with seg := g } := rfl
@[simp] theorem State.toSeg_rx (g : TxSeg) : (s.toSeg g).rx = s.rx := rfl
@[simp] theorem State.toSeg_queue (g : TxSeg) : (s.toSeg g).queue = s.queue := rfl
@[simp] theorem State.toSeg_epoch (g : TxSeg) : (s.toSeg g).epoch = s.epoch := rfl
@[simp] theorem State.toSeg_inp (g : TxSeg) : (s.toSeg g).inp = s.inp := rfl
@[simp] theorem State.toSeg_out (g : TxSeg) : (s.toSeg g).out = s.out := rfl
@[simp] theorem State.toSeg_obs (g : TxSeg) : (s.toSeg g).obs = s.obs := rfl
@[simp] theorem State.toSeg_host (g : TxSeg) : (s.toSeg g).host = s.host := rfl

/-! ### shiftData -/

@[simp] theorem State.shiftData_cfg : (s.shiftData).cfg = s.cfg := rfl
@[simp] theorem State.shiftData_running : (s.shiftData).running = s.running := rfl
@[simp] theorem State.shiftData_cyc : (s.shiftData).cyc = s.cyc := rfl
@[simp] theorem State.shiftData_tx : (s.shiftData).tx =
    { s.tx with shift := shiftTx s.cfg.bitOrder s.tx.shift, rem := s.tx.rem - 1, seg := .data } := rfl
@[simp] theorem State.shiftData_rx : (s.shiftData).rx = s.rx := rfl
@[simp] theorem State.shiftData_queue : (s.shiftData).queue = s.queue := rfl
@[simp] theorem State.shiftData_epoch : (s.shiftData).epoch = s.epoch := rfl
@[simp] theorem State.shiftData_inp : (s.shiftData).inp = s.inp := rfl
@[simp] theorem State.shiftData_out : (s.shiftData).out = s.out := rfl
@[simp] theorem State.shiftData_obs : (s.shiftData).obs = s.obs := rfl
@[simp] theorem State.shiftData_host : (s.shiftData).host = s.host := rfl

/-! ### toRx -/

@[simp] theorem State.toRx_cfg (r : RxState) : (s.toRx r).cfg = s.cfg := rfl
@[simp] theorem State.toRx_running (r : RxState) : (s.toRx r).running = s.running := rfl
@[simp] theorem State.toRx_cyc (r : RxState) : (s.toRx r).cyc = s.cyc := rfl
@[simp] theorem State.toRx_tx (r : RxState) : (s.toRx r).tx = s.tx := rfl
@[simp] theorem State.toRx_rx (r : RxState) : (s.toRx r).rx = { s.rx with state := r } := rfl
@[simp] theorem State.toRx_queue (r : RxState) : (s.toRx r).queue = s.queue := rfl
@[simp] theorem State.toRx_epoch (r : RxState) : (s.toRx r).epoch = s.epoch := rfl
@[simp] theorem State.toRx_inp (r : RxState) : (s.toRx r).inp = s.inp := rfl
@[simp] theorem State.toRx_out (r : RxState) : (s.toRx r).out = s.out := rfl
@[simp] theorem State.toRx_obs (r : RxState) : (s.toRx r).obs = s.obs := rfl
@[simp] theorem State.toRx_host (r : RxState) : (s.toRx r).host = s.host := rfl

/-! ### stamp -/

@[simp] theorem State.stamp_cfg (ts : Nat) : (s.stamp ts).cfg = s.cfg := rfl
@[simp] theorem State.stamp_running (ts : Nat) : (s.stamp ts).running = s.running := rfl
@[simp] theorem State.stamp_cyc (ts : Nat) : (s.stamp ts).cyc = s.cyc := rfl
@[simp] theorem State.stamp_tx (ts : Nat) : (s.stamp ts).tx = s.tx := rfl
@[simp] theorem State.stamp_rx (ts : Nat) : (s.stamp ts).rx = { s.rx with prevTs := ts } := rfl
@[simp] theorem State.stamp_queue (ts : Nat) : (s.stamp ts).queue = s.queue := rfl
@[simp] theorem State.stamp_epoch (ts : Nat) : (s.stamp ts).epoch = s.epoch := rfl
@[simp] theorem State.stamp_inp (ts : Nat) : (s.stamp ts).inp = s.inp := rfl
@[simp] theorem State.stamp_out (ts : Nat) : (s.stamp ts).out = s.out := rfl
@[simp] theorem State.stamp_obs (ts : Nat) : (s.stamp ts).obs = s.obs := rfl
@[simp] theorem State.stamp_host (ts : Nat) : (s.stamp ts).host = s.host := rfl

/-! ### startFrame -/

@[simp] theorem State.startFrame_cfg (ts : Nat) : (s.startFrame ts).cfg = s.cfg := rfl
@[simp] theorem State.startFrame_running (ts : Nat) : (s.startFrame ts).running = s.running := rfl
@[simp] theorem State.startFrame_cyc (ts : Nat) : (s.startFrame ts).cyc = s.cyc := rfl
@[simp] theorem State.startFrame_tx (ts : Nat) : (s.startFrame ts).tx = s.tx := rfl
@[simp] theorem State.startFrame_rx (ts : Nat) : (s.startFrame ts).rx =
    { s.rx with state := .inWord, rem := s.cfg.dataBits, acc := 0, prevTs := ts } := rfl
@[simp] theorem State.startFrame_queue (ts : Nat) : (s.startFrame ts).queue = s.queue := rfl
@[simp] theorem State.startFrame_epoch (ts : Nat) : (s.startFrame ts).epoch = s.epoch := rfl
@[simp] theorem State.startFrame_inp (ts : Nat) : (s.startFrame ts).inp = s.inp := rfl
@[simp] theorem State.startFrame_out (ts : Nat) : (s.startFrame ts).out = s.out := rfl
@[simp] theorem State.startFrame_obs (ts : Nat) : (s.startFrame ts).obs = s.obs := rfl
@[simp] theorem State.startFrame_host (ts : Nat) : (s.startFrame ts).host = s.host := rfl

/-! ### foldBit -/

@[simp] theorem State.foldBit_cfg (l : Level) : (s.foldBit l).cfg = s.cfg := rfl
@[simp] theorem State.foldBit_running (l : Level) : (s.foldBit l).running = s.running := rfl
@[simp] theorem State.foldBit_cyc (l : Level) : (s.foldBit l).cyc = s.cyc := rfl
@[simp] theorem State.foldBit_tx (l : Level) : (s.foldBit l).tx = s.tx := rfl
@[simp] theorem State.foldBit_rx (l : Level) : (s.foldBit l).rx =
    { s.rx with acc := foldRx s.cfg.bitOrder s.rx.acc l, rem := s.rx.rem - 1 } := rfl
@[simp] theorem State.foldBit_queue (l : Level) : (s.foldBit l).queue = s.queue := rfl
@[simp] theorem State.foldBit_epoch (l : Level) : (s.foldBit l).epoch = s.epoch := rfl
@[simp] theorem State.foldBit_inp (l : Level) : (s.foldBit l).inp = s.inp := rfl
@[simp] theorem State.foldBit_out (l : Level) : (s.foldBit l).out = s.out := rfl
@[simp] theorem State.foldBit_obs (l : Level) : (s.foldBit l).obs = s.obs := rfl
@[simp] theorem State.foldBit_host (l : Level) : (s.foldBit l).host = s.host := rfl

/-! ### raiseFault -/

@[simp] theorem State.raiseFault_cfg (d : Diag) : (s.raiseFault d).cfg = s.cfg := rfl
@[simp] theorem State.raiseFault_running (d : Diag) : (s.raiseFault d).running = s.running := rfl
@[simp] theorem State.raiseFault_cyc (d : Diag) : (s.raiseFault d).cyc = s.cyc := rfl
@[simp] theorem State.raiseFault_tx (d : Diag) : (s.raiseFault d).tx = s.tx := rfl
@[simp] theorem State.raiseFault_rx (d : Diag) : (s.raiseFault d).rx = { s.rx with state := .fault, diag := d } := rfl
@[simp] theorem State.raiseFault_queue (d : Diag) : (s.raiseFault d).queue = s.queue := rfl
@[simp] theorem State.raiseFault_epoch (d : Diag) : (s.raiseFault d).epoch = s.epoch := rfl
@[simp] theorem State.raiseFault_inp (d : Diag) : (s.raiseFault d).inp = s.inp := rfl
@[simp] theorem State.raiseFault_out (d : Diag) : (s.raiseFault d).out = s.out := rfl
@[simp] theorem State.raiseFault_obs (d : Diag) : (s.raiseFault d).obs = s.obs := rfl
@[simp] theorem State.raiseFault_host (d : Diag) : (s.raiseFault d).host = s.host := rfl

/-! ### clearRx -/

@[simp] theorem State.clearRx_cfg : (s.clearRx).cfg = s.cfg := rfl
@[simp] theorem State.clearRx_running : (s.clearRx).running = s.running := rfl
@[simp] theorem State.clearRx_cyc : (s.clearRx).cyc = s.cyc := rfl
@[simp] theorem State.clearRx_tx : (s.clearRx).tx = s.tx := rfl
@[simp] theorem State.clearRx_rx : (s.clearRx).rx = Rx.clear := rfl
@[simp] theorem State.clearRx_queue : (s.clearRx).queue = s.queue := rfl
@[simp] theorem State.clearRx_epoch : (s.clearRx).epoch = s.epoch := rfl
@[simp] theorem State.clearRx_inp : (s.clearRx).inp = s.inp := rfl
@[simp] theorem State.clearRx_out : (s.clearRx).out = s.out := rfl
@[simp] theorem State.clearRx_obs : (s.clearRx).obs = s.obs := rfl
@[simp] theorem State.clearRx_host : (s.clearRx).host = s.host := rfl

/-! ### prepend -/

@[simp] theorem State.prepend_cfg (ls : List Line) : (s.prepend ls).cfg = s.cfg := rfl
@[simp] theorem State.prepend_running (ls : List Line) : (s.prepend ls).running = s.running := rfl
@[simp] theorem State.prepend_cyc (ls : List Line) : (s.prepend ls).cyc = s.cyc := rfl
@[simp] theorem State.prepend_tx (ls : List Line) : (s.prepend ls).tx = s.tx := rfl
@[simp] theorem State.prepend_rx (ls : List Line) : (s.prepend ls).rx = s.rx := rfl
@[simp] theorem State.prepend_queue (ls : List Line) : (s.prepend ls).queue = s.queue := rfl
@[simp] theorem State.prepend_epoch (ls : List Line) : (s.prepend ls).epoch = s.epoch := rfl
@[simp] theorem State.prepend_inp (ls : List Line) : (s.prepend ls).inp = s.inp := rfl
@[simp] theorem State.prepend_out (ls : List Line) : (s.prepend ls).out = s.out := rfl
@[simp] theorem State.prepend_obs (ls : List Line) : (s.prepend ls).obs = s.obs := rfl
@[simp] theorem State.prepend_host (ls : List Line) : (s.prepend ls).host = ls ++ s.host := rfl

/-! ### powerOn -/

@[simp] theorem State.powerOn_cfg : (s.powerOn).cfg = s.cfg := rfl
@[simp] theorem State.powerOn_running : (s.powerOn).running = s.running := rfl
@[simp] theorem State.powerOn_cyc : (s.powerOn).cyc = 0 := rfl
@[simp] theorem State.powerOn_tx : (s.powerOn).tx = State.reset.tx := rfl
@[simp] theorem State.powerOn_rx : (s.powerOn).rx = Rx.clear := rfl
@[simp] theorem State.powerOn_queue : (s.powerOn).queue = State.reset.queue := rfl
@[simp] theorem State.powerOn_epoch : (s.powerOn).epoch = s.epoch + 1 := rfl
@[simp] theorem State.powerOn_inp : (s.powerOn).inp = s.inp := rfl
@[simp] theorem State.powerOn_out : (s.powerOn).out = Outs.quiet := rfl
@[simp] theorem State.powerOn_obs : (s.powerOn).obs = s.obs := rfl
@[simp] theorem State.powerOn_host : (s.powerOn).host = s.host := rfl

/-! ### tick -/

@[simp] theorem State.tick_cfg : (s.tick).cfg = s.cfg := rfl
@[simp] theorem State.tick_running : (s.tick).running = s.running := rfl
@[simp] theorem State.tick_cyc : (s.tick).cyc = (s.cyc + 1) % s.cfg.tsMod := rfl
@[simp] theorem State.tick_tx : (s.tick).tx = s.tx := rfl
@[simp] theorem State.tick_rx : (s.tick).rx = s.rx := rfl
@[simp] theorem State.tick_queue : (s.tick).queue = s.queue := rfl
@[simp] theorem State.tick_epoch : (s.tick).epoch = s.epoch := rfl
@[simp] theorem State.tick_inp : (s.tick).inp = s.inp := rfl
@[simp] theorem State.tick_out : (s.tick).out = s.out := rfl
@[simp] theorem State.tick_obs : (s.tick).obs = s.obs := rfl
@[simp] theorem State.tick_host : (s.tick).host = s.host := rfl

/-! ### begin -/

@[simp] theorem State.begin_cfg : (s.begin).cfg = s.cfg := rfl
@[simp] theorem State.begin_running : (s.begin).running = true := rfl
@[simp] theorem State.begin_cyc : (s.begin).cyc = s.cyc := rfl
@[simp] theorem State.begin_tx : (s.begin).tx = s.tx := rfl
@[simp] theorem State.begin_rx : (s.begin).rx = s.rx := rfl
@[simp] theorem State.begin_queue : (s.begin).queue = s.queue := rfl
@[simp] theorem State.begin_epoch : (s.begin).epoch = s.epoch := rfl
@[simp] theorem State.begin_inp : (s.begin).inp = Ports.quiet := rfl
@[simp] theorem State.begin_out : (s.begin).out = Outs.quiet := rfl
@[simp] theorem State.begin_obs : (s.begin).obs = s.obs := rfl
@[simp] theorem State.begin_host : (s.begin).host = s.host := rfl

/-! ### The selection reads TX and the configuration only -/

theorem State.txSel_congr {s t : State} (ht : t.tx = s.tx) (hc : t.cfg = s.cfg) : t.txSel = s.txSel := by
  simp [State.txSel, State.boundarySel, ht, hc]

theorem State.select_congr {s t : State} (ht : t.tx = s.tx) (hr : t.rx.state = s.rx.state)
    (hc : t.cfg = s.cfg) : t.select = s.select := by
  simp [State.select, State.txSel_congr ht hc, hr, hc]

/-- TX selects its idle operations exactly in `TxIdle` (R120). -/
theorem State.txSel_idle_iff : s.txSel = .idle ↔ s.tx.seg = .idle := by
  unfold State.txSel State.boundarySel
  split <;> simp_all <;> split <;> (try split) <;> (try split) <;> simp_all

end Sys2Proof.Machine
end

