-- ==== Sys2Proof/Laws/Lines.lean ====
section
/-! SUPPORT. The lines a frame's levels become (30_encoding R61, 60_exceptions R212). -/

namespace Sys2Proof.Machine

@[simp] theorem benchLines_nil (c : Cfg) (t : Nat) : benchLines c t [] = [] := rfl

@[simp] theorem benchLines_cons (c : Cfg) (t : Nat) (l : Level) (ls : List Level) :
    benchLines c t (l :: ls) =
      .ev l (t % c.tsMod) :: .hold (c.cpb - 1) :: benchLines c (t + c.cpb) ls := rfl

/-- Level `k` of the sequence is an event `k * cpb` cycles after the first, held until the next. -/
theorem benchLines_eq_flatten (c : Cfg) (t : Nat) (ls : List Level) :
    benchLines c t ls =
      (ls.mapIdx fun k l => [Line.ev l ((t + k * c.cpb) % c.tsMod), Line.hold (c.cpb - 1)]).flatten := by
  induction ls generalizing t with
  | nil => rfl
  | cons l ls ih =>
    have e : ∀ k, t + (k + 1) * c.cpb = t + c.cpb + k * c.cpb := by intro k; ring
    simp [ih, List.mapIdx_cons, e]

end Sys2Proof.Machine
end

