-- ==== Sys2Proof/Laws/Memory.lean ====
section
/-! SUPPORT. The laws of the queue's memory: read after write, and that a write keeps the canonical form. -/

namespace Sys2Proof.Machine

@[simp] theorem Memory.wf_nil : Memory.wf [] = true := rfl

theorem Memory.wf_cons {b : Nat} {w : Byte} {m : Memory} :
    Memory.wf ((b, w) :: m) = true ↔ (∀ cell ∈ m, b < cell.1) ∧ Memory.wf m = true := by
  induction m generalizing b w with
  | nil => simp [Memory.wf]
  | cons c m ih =>
    obtain ⟨c1, c2⟩ := c
    rw [Memory.wf, Bool.and_eq_true, decide_eq_true_eq]
    constructor
    · rintro ⟨h, hm⟩
      refine ⟨?_, hm⟩
      intro cell hcell
      rcases List.mem_cons.1 hcell with rfl | hcell
      · exact h
      · exact lt_trans h ((ih.1 hm).1 cell hcell)
    · rintro ⟨h, hm⟩
      exact ⟨h (c1, c2) (by simp), hm⟩

theorem Memory.mem_of_mem_write {a : Nat} {v : Byte} {m : Memory} {cell : Host.Cell}
    (h : cell ∈ m.write a v) : cell = (a, v) ∨ cell ∈ m := by
  induction m with
  | nil => simpa [Memory.write] using h
  | cons c m ih =>
    obtain ⟨b, w⟩ := c
    rw [Memory.write] at h
    split at h
    · simpa using h
    · split at h
      · rcases List.mem_cons.1 h with h | h
        · exact .inl h
        · exact .inr (List.mem_cons_of_mem _ h)
      · rcases List.mem_cons.1 h with h | h
        · exact .inr (by simp [h])
        · exact (ih h).imp_right (List.mem_cons_of_mem _)

/-- A write keeps the canonical form. -/
theorem Memory.write_wf {a : Nat} {v : Byte} {m : Memory} (h : Memory.wf m = true) :
    Memory.wf (m.write a v) = true := by
  induction m with
  | nil => rfl
  | cons c m ih =>
    obtain ⟨b, w⟩ := c
    obtain ⟨hb, hm⟩ := Memory.wf_cons.1 h
    rw [Memory.write]
    split
    · next hab =>
      refine Memory.wf_cons.2 ⟨?_, h⟩
      intro cell hcell
      rcases List.mem_cons.1 hcell with rfl | hcell
      · exact hab
      · exact lt_trans hab (hb cell hcell)
    · split
      · next hab => exact Memory.wf_cons.2 ⟨by rw [hab]; exact hb, hm⟩
      · next h1 h2 =>
        refine Memory.wf_cons.2 ⟨?_, ih hm⟩
        intro cell hcell
        rcases Memory.mem_of_mem_write hcell with rfl | hcell
        · simp only; omega
        · exact hb cell hcell

@[simp] theorem Memory.read_write_self (a : Nat) (v : Byte) (m : Memory) :
    Memory.read a (m.write a v) = some v := by
  induction m with
  | nil => simp [Memory.write, Memory.read]
  | cons c m ih =>
    obtain ⟨b, w⟩ := c
    rw [Memory.write]
    split
    · simp [Memory.read]
    · split
      · simp [Memory.read]
      · next h1 h2 => simp [Memory.read, h2, ih]

theorem Memory.read_write_other {a b : Nat} (v : Byte) (m : Memory) (h : b ≠ a) :
    Memory.read b (m.write a v) = Memory.read b m := by
  induction m with
  | nil => simp [Memory.write, Memory.read, h]
  | cons c m ih =>
    obtain ⟨c1, w⟩ := c
    rw [Memory.write]
    split
    · simp [Memory.read, h]
    · split
      · next h2 => subst h2; simp [Memory.read, h]
      · simp [Memory.read, ih]

/-- What a read finds is listed. -/
theorem Memory.mem_of_read {a : Nat} {v : Byte} {m : Memory} (h : Memory.read a m = some v) :
    (a, v) ∈ m := by
  induction m with
  | nil => simp [Memory.read] at h
  | cons c m ih =>
    obtain ⟨b, w⟩ := c
    rw [Memory.read] at h
    split at h
    · next hab => simp_all
    · exact List.mem_cons_of_mem _ (ih h)

end Sys2Proof.Machine
end

