-- ==== Sys2Proof/Laws/PerInstr.lean ====
section
/-! SUPPORT. Statements about every instruction, one lemma a constructor. -/

/-- The encoded word fits the bits its format gives it. -/
def Sys2Proof.Laws.WordFits.Statement (i : Sys2Proof.Instr) : Prop :=
  ∀ cpbWidth tsWidth, i.wellFormed cpbWidth tsWidth = true →
    (Sys2Proof.encode tsWidth i).word < 2 ^ (Sys2Proof.encode tsWidth i).fmt.width cpbWidth tsWidth

namespace Sys2Proof.Laws

theorem WordFits.por : WordFits.Statement (.por) := by
  intro _ _ _; simp [encode, Format.width]

theorem WordFits.tx (v : Byte) : WordFits.Statement (.tx v) := by
  intro _ _ _; exact BitVec.isLt _

theorem WordFits.txRefused (v : Byte) : WordFits.Statement (.txRefused v) := by
  intro _ _ _; exact BitVec.isLt _

theorem WordFits.txidle (x : Byte) : WordFits.Statement (.txidle x) := by
  intro _ _ _; exact BitVec.isLt _

theorem WordFits.txhold (x : BitVec 9) : WordFits.Statement (.txhold x) := by
  intro _ _ _; exact BitVec.isLt _

theorem WordFits.txdata (x : BitVec 9) : WordFits.Statement (.txdata x) := by
  intro _ _ _; exact BitVec.isLt _

theorem WordFits.txparity (x : BitVec 9) : WordFits.Statement (.txparity x) := by
  intro _ _ _; exact BitVec.isLt _

theorem WordFits.txstop (x : BitVec 9) : WordFits.Statement (.txstop x) := by
  intro _ _ _; exact BitVec.isLt _

theorem WordFits.txend (x : BitVec 9) : WordFits.Statement (.txend x) := by
  intro _ _ _; exact BitVec.isLt _

theorem WordFits.evIdle0 (ts : Nat) : WordFits.Statement (.evIdle0 ts) := by
  intro _ _ _; exact packEvt_lt _ _ _ _

theorem WordFits.evIdle1 (ts : Nat) : WordFits.Statement (.evIdle1 ts) := by
  intro _ _ _; exact packEvt_lt _ _ _ _

theorem WordFits.evInword (l : Level) (ts : Nat) : WordFits.Statement (.evInword l ts) := by
  intro _ _ _; exact packEvt_lt _ _ _ _

theorem WordFits.evParity (l : Level) (ts : Nat) : WordFits.Statement (.evParity l ts) := by
  intro _ _ _; exact packEvt_lt _ _ _ _

theorem WordFits.evStop1 (ts : Nat) : WordFits.Statement (.evStop1 ts) := by
  intro _ _ _; exact packEvt_lt _ _ _ _

theorem WordFits.evStop0 (ts : Nat) : WordFits.Statement (.evStop0 ts) := by
  intro _ _ _; exact packEvt_lt _ _ _ _

theorem WordFits.evFault (l : Level) (ts : Nat) : WordFits.Statement (.evFault l ts) := by
  intro _ _ _; exact packEvt_lt _ _ _ _

theorem WordFits.rxreset : WordFits.Statement (.rxreset) := by
  intro _ _ _; simp [encode, Format.width]

theorem WordFits.rxread : WordFits.Statement (.rxread) := by
  intro _ _ _; simp [encode, Format.width]

theorem WordFits.cpb (f b : Nat) : WordFits.Statement (.cpb f b) := by
  intro _ _ h
  simp only [Instr.wellFormed, legalCpb, Bool.and_eq_true, decide_eq_true_eq] at h
  exact h.2.1.2

theorem WordFits.encode (v : Byte) (p : BitVec 2) (o : BitVec 1) (b : BitVec 4) : WordFits.Statement (.encode v p o b) := by
  intro _ _ _
  have h1 := packCfgw_lt p o b
  have h2 := v.isLt
  simp only [Sys2Proof.encode, Format.width]
  omega

theorem WordFits.print (x : BitVec 9) (bs : List Byte) : WordFits.Statement (.print x bs) := by
  intro _ _ _; exact BitVec.isLt _

theorem WordFits.println (x : BitVec 9) (bs : List Byte) : WordFits.Statement (.println x bs) := by
  intro _ _ _; exact BitVec.isLt _

theorem WordFits.fmtCfgw (p : BitVec 2) (o : BitVec 1) (b : BitVec 4) : WordFits.Statement (.fmtCfgw p o b) := by
  intro _ _ _; exact lt_trans (packCfgw_lt p o b) (by simp [Sys2Proof.encode, Format.width])

theorem WordFits.fmtTxreq (e : Bool) (v : Byte) : WordFits.Statement (.fmtTxreq e v) := by
  intro _ _ _; exact BitVec.isLt _

theorem WordFits.fmtEvt (e : Bool) (l : Level) (ts : Nat) : WordFits.Statement (.fmtEvt e l ts) := by
  intro _ _ _; exact packEvt_lt _ _ _ _

theorem WordFits.fmtRd (e : Bool) (v : Byte) : WordFits.Statement (.fmtRd e v) := by
  intro _ _ _; exact BitVec.isLt _

theorem WordFits.fmtDiag (a e : Nat) (p : BitVec 4) (k : BitVec 2) : WordFits.Statement (.fmtDiag a e p k) := by
  intro _ _ h
  simp only [Instr.wellFormed, Bool.and_eq_true, decide_eq_true_eq] at h
  exact packDiag_lt _ _ _ _ _ h.1 h.2

theorem WordFits.frame1n (d : BitVec 1) : WordFits.Statement (.frame1n d) := by
  intro _ _ _; exact lt_trans (packFrame_lt d) (by simp [Sys2Proof.encode, Format.width])

theorem WordFits.frame1p (d : BitVec 1) (p : Level) : WordFits.Statement (.frame1p d p) := by
  intro _ _ _; exact lt_trans (packFrameP_lt d p) (by simp [Sys2Proof.encode, Format.width])

theorem WordFits.frame2n (d : BitVec 2) : WordFits.Statement (.frame2n d) := by
  intro _ _ _; exact lt_trans (packFrame_lt d) (by simp [Sys2Proof.encode, Format.width])

theorem WordFits.frame2p (d : BitVec 2) (p : Level) : WordFits.Statement (.frame2p d p) := by
  intro _ _ _; exact lt_trans (packFrameP_lt d p) (by simp [Sys2Proof.encode, Format.width])

theorem WordFits.frame3n (d : BitVec 3) : WordFits.Statement (.frame3n d) := by
  intro _ _ _; exact lt_trans (packFrame_lt d) (by simp [Sys2Proof.encode, Format.width])

theorem WordFits.frame3p (d : BitVec 3) (p : Level) : WordFits.Statement (.frame3p d p) := by
  intro _ _ _; exact lt_trans (packFrameP_lt d p) (by simp [Sys2Proof.encode, Format.width])

theorem WordFits.frame4n (d : BitVec 4) : WordFits.Statement (.frame4n d) := by
  intro _ _ _; exact lt_trans (packFrame_lt d) (by simp [Sys2Proof.encode, Format.width])

theorem WordFits.frame4p (d : BitVec 4) (p : Level) : WordFits.Statement (.frame4p d p) := by
  intro _ _ _; exact lt_trans (packFrameP_lt d p) (by simp [Sys2Proof.encode, Format.width])

theorem WordFits.frame5n (d : BitVec 5) : WordFits.Statement (.frame5n d) := by
  intro _ _ _; exact lt_trans (packFrame_lt d) (by simp [Sys2Proof.encode, Format.width])

theorem WordFits.frame5p (d : BitVec 5) (p : Level) : WordFits.Statement (.frame5p d p) := by
  intro _ _ _; exact lt_trans (packFrameP_lt d p) (by simp [Sys2Proof.encode, Format.width])

theorem WordFits.frame6n (d : BitVec 6) : WordFits.Statement (.frame6n d) := by
  intro _ _ _; exact lt_trans (packFrame_lt d) (by simp [Sys2Proof.encode, Format.width])

theorem WordFits.frame6p (d : BitVec 6) (p : Level) : WordFits.Statement (.frame6p d p) := by
  intro _ _ _; exact lt_trans (packFrameP_lt d p) (by simp [Sys2Proof.encode, Format.width])

theorem WordFits.frame7n (d : BitVec 7) : WordFits.Statement (.frame7n d) := by
  intro _ _ _; exact lt_trans (packFrame_lt d) (by simp [Sys2Proof.encode, Format.width])

theorem WordFits.frame7p (d : BitVec 7) (p : Level) : WordFits.Statement (.frame7p d p) := by
  intro _ _ _; exact lt_trans (packFrameP_lt d p) (by simp [Sys2Proof.encode, Format.width])

theorem WordFits.frame8n (d : BitVec 8) : WordFits.Statement (.frame8n d) := by
  intro _ _ _; exact lt_trans (packFrame_lt d) (by simp [Sys2Proof.encode, Format.width])

theorem WordFits.frame8p (d : BitVec 8) (p : Level) : WordFits.Statement (.frame8p d p) := by
  intro _ _ _; exact lt_trans (packFrameP_lt d p) (by simp [Sys2Proof.encode, Format.width])

end Sys2Proof.Laws
end

