-- ==== Sys2Proof/Laws/Queue.lean ====
section
/-! SUPPORT. Everything the queue primitives and the commit can do (20_memory R42, R43; 43 R156). -/

namespace Sys2Proof.Machine

/-- All a push can do (R43). -/
theorem State.push_cases (v : Byte) (s : State) :
    (s.queue.count < s.cfg.queueCapacity ∧
      s.push v = .next { s with queue := { s.queue with
        mem := s.queue.mem.write s.tail v, count := s.queue.count + 1 } }) ∨
    (s.cfg.queueCapacity ≤ s.queue.count ∧ s.cfg.overflowPolicy = .dropNewest ∧
      s.push v = .next { s with queue := { s.queue with overflow := true } }) ∨
    (s.cfg.queueCapacity ≤ s.queue.count ∧ s.cfg.overflowPolicy = .overwriteOldest ∧
      s.queue.head < s.cfg.queueCapacity ∧
      s.push v = .next { s with queue := { s.queue with
        mem := s.queue.mem.write s.queue.head v
        head := (s.queue.head + 1) % s.cfg.queueCapacity
        overflow := true } }) ∨
    (s.cfg.queueCapacity ≤ s.queue.count ∧ s.cfg.overflowPolicy = .overwriteOldest ∧
      s.cfg.queueCapacity ≤ s.queue.head ∧ s.push v = .fault .queueIndexOutOfRange) := by
  unfold State.push
  by_cases hc : s.queue.count < s.cfg.queueCapacity
  · exact .inl ⟨hc, by simp [hc]⟩
  · have hle := Nat.not_lt.1 hc
    cases hp : s.cfg.overflowPolicy with
    | dropNewest => exact .inr (.inl ⟨hle, rfl, by simp [hc]⟩)
    | overwriteOldest =>
      by_cases hh : s.queue.head < s.cfg.queueCapacity
      · exact .inr (.inr (.inl ⟨hle, rfl, hh, by simp [hc, hh]⟩))
      · exact .inr (.inr (.inr ⟨hle, rfl, Nat.not_lt.1 hh, by simp [hc, hh]⟩))

/-- A push writes the queue and nothing else. -/
theorem State.push_frame {v : Byte} {s t : State} (h : s.push v = .next t) :
    t = { s with queue := t.queue } := by
  rcases s.push_cases v with ⟨_, e⟩ | ⟨_, _, e⟩ | ⟨_, _, _, e⟩ | ⟨_, _, _, e⟩ <;>
    rw [e] at h <;> cases h <;> rfl

/-- A push goes on wherever the head is an index of the queue. -/
theorem State.push_goesOn (v : Byte) {s : State} (h : s.queue.head < s.cfg.queueCapacity) :
    ∃ t, s.push v = .next t := by
  rcases s.push_cases v with ⟨_, e⟩ | ⟨_, _, e⟩ | ⟨_, _, _, e⟩ | ⟨_, _, hh, _⟩
  · exact ⟨_, e⟩
  · exact ⟨_, e⟩
  · exact ⟨_, e⟩
  · omega

/-- All a pop can do (R42). -/
theorem State.pop_cases (s : State) :
    (s.queue.count = 0 ∧ s.pop = .next { s with out := { s.out with rd := some ⟨false, 0⟩ } }) ∨
    (s.queue.count ≠ 0 ∧ s.queue.head < s.cfg.queueCapacity ∧
      s.pop = .next { s with
        queue := { s.queue with
          head := (s.queue.head + 1) % s.cfg.queueCapacity, count := s.queue.count - 1 }
        out := { s.out with rd := some ⟨true, s.entry s.queue.head⟩ } }) ∨
    (s.queue.count ≠ 0 ∧ s.cfg.queueCapacity ≤ s.queue.head ∧ s.pop = .fault .queueIndexOutOfRange) := by
  unfold State.pop
  by_cases hc : s.queue.count = 0
  · exact .inl ⟨hc, by simp [hc]⟩
  · by_cases hh : s.queue.head < s.cfg.queueCapacity
    · exact .inr (.inl ⟨hc, hh, by simp [hc, hh]⟩)
    · exact .inr (.inr ⟨hc, Nat.not_lt.1 hh, by simp [hc, hh]⟩)

/-- A pop writes the queue and the answer and nothing else. -/
theorem State.pop_frame {s t : State} (h : s.pop = .next t) :
    t = { s with queue := t.queue, out := { s.out with rd := t.out.rd } } := by
  rcases s.pop_cases with ⟨_, e⟩ | ⟨_, _, e⟩ | ⟨_, _, e⟩ <;> rw [e] at h <;> cases h <;> rfl

/-- All the timing check can do: a mistimed event faults, an event on time goes on (R153, R208). -/
theorem State.timed_cases (ts : Nat) (p : BitVec 4) (k : State → Result) (s : State) :
    (s.elapsed ts = s.cfg.cpb ∧ s.timed ts p k = k (s.stamp ts)) ∨
    (s.elapsed ts ≠ s.cfg.cpb ∧
      s.timed ts p k = .next ((s.stamp ts).raiseFault ⟨.timingGlitch, s.cfg.cpb, s.elapsed ts, p⟩)) := by
  by_cases h : s.elapsed ts = s.cfg.cpb
  · exact .inl ⟨h, by simp [State.timed, State.onTime, h]⟩
  · exact .inr ⟨h, by simp [State.timed, State.onTime, State.glitch, h]⟩

/-- A commit pushes the realigned byte and returns to Idle (R156). -/
theorem State.commit_eq_next {s t : State} : s.commit = .next t ↔
    ∃ u, s.push (decoded s.cfg.bitOrder s.cfg.bits s.rx.acc) = .next u ∧ t = u.toRx .idle := by
  unfold State.commit
  cases h : s.push (decoded s.cfg.bitOrder s.cfg.bits s.rx.acc) <;> simp [andThen, eq_comm]

end Sys2Proof.Machine
end

