-- ==== Sys2Proof/Laws/Run.lean ====
section
/-! SUPPORT. How results are chained: `andThen`, `execAll`, and what a clock cycle is made of. -/

namespace Sys2Proof.Machine

@[simp] theorem andThen_next (s : State) (f : State → Result) : andThen (.next s) f = f s := rfl
@[simp] theorem andThen_fault (r : Fault) (f : State → Result) : andThen (.fault r) f = .fault r := rfl
@[simp] theorem andThen_refused (r : Refusal) (f : State → Result) : andThen (.refused r) f = .refused r := rfl

/-- A chain that ends in a next state went through one. -/
theorem andThen_eq_next {o : Result} {f : State → Result} {t : State} :
    andThen o f = .next t ↔ ∃ s, o = .next s ∧ f s = .next t := by
  cases o <;> simp [andThen]

@[simp] theorem execAll_nil (s : State) : execAll [] s = .next s := rfl

@[simp] theorem execAll_cons (i : Instr) (is : List Instr) (s : State) :
    execAll (i :: is) s = andThen (exec i s) (execAll is) := rfl

theorem execAll_singleton (i : Instr) (s : State) : execAll [i] s = exec i s := by
  cases h : exec i s <;> simp [h]

/-- The cycle of a power-on reset (R230). -/
theorem cycle_por {p : Ports} (h : p.por = true) (s : State) : cycle p s = .next s.begin.powerOn := by
  simp [cycle, h, exec, execPor]

/-- The three phases of any other cycle and the clock's increment (R211). -/
theorem cycle_eq_next {p : Ports} (h : p.por = false) {s t : State} :
    cycle p s = .next t ↔
      ∃ s1 s2 s3, readPhase p s.begin = .next s1 ∧ txPhase p s1 = .next s2 ∧
        rxPhase p s2 = .next s3 ∧ t = s3.tick := by
  simp only [cycle, h, Bool.false_eq_true, if_false, andThen_eq_next]
  constructor
  · rintro ⟨s1, h1, s2, h2, s3, h3, h4⟩
    exact ⟨s1, s2, s3, h1, h2, h3, by cases h4; rfl⟩
  · rintro ⟨s1, s2, s3, h1, h2, h3, rfl⟩
    exact ⟨s1, h1, s2, h2, s3, h3, rfl⟩

@[simp] theorem cycles_nil (s : State) : cycles [] s = .next s := rfl

@[simp] theorem cycles_cons (p : Ports) (ps : List Ports) (s : State) :
    cycles (p :: ps) s = andThen (cycle p s) (cycles ps) := rfl

theorem cycles_append (ps qs : List Ports) (s : State) :
    cycles (ps ++ qs) s = andThen (cycles ps s) (cycles qs) := by
  induction ps generalizing s with
  | nil => simp
  | cons p ps ih => cases h : cycle p s <;> simp [h, ih]

@[simp] theorem deliver_nil (s : State) : deliver [] s = .next s := rfl

theorem deliver_append (es fs : List Event) (s : State) :
    deliver (es ++ fs) s = andThen (deliver es s) (deliver fs) := by
  induction es generalizing s with
  | nil => simp
  | cons e es ih =>
    cases h : execAll (evInstrs s.select (packEvt s.cfg.tsWidth true e.level e.ts)) s <;>
      simp [deliver, h, ih]

end Sys2Proof.Machine
end

