-- ==== Sys2Proof/Tests/Slice0.lean ====
section
/-! SUPPORT. The model's own tests: what WellFormed and the decoder refuse, each row's word written out from
30_encoding, one-step tests whose expected values are the spec's worked examples and vectors (95_test_vectors), and
for each statement with hypotheses a state that meets them. -/

namespace Sys2Proof.Machine.Tests

set_option Elab.async false

/-! ## States -/

/-- A configuration by its `dataBits`, `bitOrder`, `parityMode`, at CPB 64. -/
def cfgOf (n : BitVec 4) (o : BitOrder) (p : ParityMode) : Cfg :=
  { Cfg.default with dataBits := n, bitOrder := o, parityMode := p }

/-- A running idle instance. -/
def idleOf (c : Cfg) : State := { State.reset with cfg := c, running := true }

/-- A running instance with a frame in flight. -/
def flying (c : Cfg) (seg : TxSeg) (pin : Level) (shift : Byte) (rem : BitVec 4) (par : Bool) (cnt : Nat) : State :=
  { idleOf c with tx := ⟨pin, shift, rem, par, seg, cnt, true⟩ }

/-- A running instance whose receiver is in the middle of a frame. -/
def hearing (c : Cfg) (r : RxState) (acc : Byte) (rem : BitVec 4) (prev : Nat) : State :=
  { idleOf c with rx := ⟨r, acc, rem, prev, Diag.clear⟩ }

/-- The same with these bytes in the queue from index `head` on. -/
def State.holding (head : Nat) (bs : List Byte) (s : State) : State :=
  { s with queue := { s.queue with
    head := head
    count := bs.length
    mem := (bs.mapIdx fun i b => ((head + i) % s.cfg.queueCapacity, b)).foldl (fun m c => Memory.write c.1 c.2 m) [] } }

/-- The receiver in Fault. -/
def faulty (d : Diag) : State := { idleOf Cfg.default with rx := ⟨.fault, 0, 0, 0, d⟩ }

/-- 7 data bits, LSB first, no parity (the source's scenario A). -/
def cfgA : Cfg := cfgOf 7 .lsb .none

/-- A queue of two entries, to fill it in few words. -/
def cfgTwo (p : OverflowPolicy) : Cfg := { cfgA with queueCapacity := 2, overflowPolicy := p }

/-- The state a result goes on to, if it does. -/
def goesTo (r : Result) : Option State :=
  match r with
  | .next s => some s
  | .fault _ => none
  | .refused _ => none

/-- Whether a result is the refusal of a configuration. -/
def isConfigError (r : Result) : Bool :=
  match r with
  | .refused .configurationError => true
  | .refused (.notModelled _) => false
  | .refused (.undecodable _) => false
  | .next _ => false
  | .fault _ => false

/-- The invariant as a computation. -/
def good (s : State) : Bool :=
  s.cfg.valid && decide (s.cyc < s.cfg.tsMod) &&
  (decide (s.tx.rem.toNat ≤ s.cfg.bits) && decide (s.tx.cnt < s.cfg.cpb) &&
    decide (s.tx.seg = .start → s.tx.rem = s.cfg.dataBits) &&
    decide (s.tx.seg = .parity ∨ s.tx.seg = .stop → s.tx.rem = 0) &&
    decide (s.tx.seg = .parity → s.cfg.parityMode ≠ .none) &&
    decide (s.tx.seg = .start → s.tx.pin = false) &&
    decide (s.tx.seg = .idle ∨ s.tx.seg = .stop → s.tx.pin = true) &&
    decide (s.tx.excl = true ↔ s.tx.seg ≠ .idle)) &&
  (decide (s.rx.prevTs < s.cfg.tsMod) && decide (s.rx.rem.toNat ≤ s.cfg.bits) &&
    decide (s.rx.state = .inWord → 1 ≤ s.rx.rem.toNat) &&
    decide (s.rx.state = .parityBit → s.cfg.parityMode ≠ .none) &&
    decide (s.rx.state = .inWord → if s.cfg.bitOrder = .lsb
      then s.rx.acc.toNat % 2 ^ (8 - (s.cfg.bits - s.rx.rem.toNat)) = 0
      else s.rx.acc.toNat < 2 ^ (s.cfg.bits - s.rx.rem.toNat)) &&
    decide (s.rx.state = .parityBit ∨ s.rx.state = .stopBit → if s.cfg.bitOrder = .lsb
      then s.rx.acc.toNat % 2 ^ (8 - s.cfg.bits) = 0 else s.rx.acc.toNat < 2 ^ s.cfg.bits) &&
    decide (s.rx.diag.kind ≠ .none ↔ s.rx.state = .fault) &&
    decide (s.rx.state ≠ .fault → s.rx.diag = Diag.clear) &&
    decide (s.rx.diag.expected < s.cfg.tsMod ∧ s.rx.diag.actual < s.cfg.tsMod ∧ s.rx.diag.position.toNat ≤ 9) &&
    decide (s.rx.diag.kind = .framingError → s.cfg.stop0Policy = .framingFault)) &&
  (decide (s.queue.head < s.cfg.queueCapacity) && decide (s.queue.count ≤ s.cfg.queueCapacity) &&
    Memory.wf s.queue.mem &&
    decide (∀ cell ∈ s.queue.mem, cell.1 < s.cfg.queueCapacity ∧ cell.2.toNat < 2 ^ s.cfg.bits) &&
    decide (∀ i, i < s.queue.count →
      (Memory.read ((s.queue.head + i) % s.cfg.queueCapacity) s.queue.mem).isSome = true)) &&
  decide (s.running = false → s.tx = State.reset.tx ∧ s.rx = Rx.clear ∧ s.queue = State.reset.queue)

theorem accHolds_iff (o : BitOrder) (k : Nat) (a : Byte) :
    accHolds o k a ↔ if o = .lsb then a.toNat % 2 ^ (8 - k) = 0 else a.toNat < 2 ^ k := by
  cases o <;> simp [accHolds]

theorem inv_of_good {s : State} (h : good s = true) : s.Inv := by
  simp only [good, Bool.and_eq_true, decide_eq_true_eq, ← accHolds_iff] at h
  obtain ⟨⟨⟨⟨⟨hv, hc⟩, ht⟩, hr⟩, hq⟩, hu⟩ := h
  obtain ⟨⟨⟨⟨⟨⟨⟨t1, t2⟩, t3⟩, t4⟩, t5⟩, t6⟩, t7⟩, t8⟩ := ht
  obtain ⟨⟨⟨⟨⟨⟨⟨⟨⟨r1, r2⟩, r3⟩, r4⟩, r5⟩, r6⟩, r7⟩, r8⟩, r9⟩, r10⟩ := hr
  obtain ⟨⟨⟨⟨q1, q2⟩, q3⟩, q4⟩, q5⟩ := hq
  exact ⟨hv, hc, ⟨t1, t2, t3, t4, t5, t6, t7, t8⟩, ⟨r1, r2, r3, r4, r5, r6, r7, r8, r9, r10⟩,
    ⟨q1, q2, q3, q4, q5⟩, hu⟩

/-! ## WellFormed refuses an ill-formed term of each check -/

theorem test_illformed_timestamps :
    (Instr.evIdle0 (2 ^ 32)).wellFormed 16 32 = false ∧ (Instr.evIdle1 (2 ^ 32)).wellFormed 16 32 = false ∧
    (Instr.evInword true (2 ^ 32)).wellFormed 16 32 = false ∧
    (Instr.evParity true (2 ^ 32)).wellFormed 16 32 = false ∧
    (Instr.evStop1 (2 ^ 32)).wellFormed 16 32 = false ∧ (Instr.evStop0 (2 ^ 32)).wellFormed 16 32 = false ∧
    (Instr.evFault false (2 ^ 32)).wellFormed 16 32 = false ∧
    (Instr.fmtEvt true true (2 ^ 32)).wellFormed 16 32 = false := by decide +kernel

theorem test_illformed_counts :
    (Instr.cpb 0 1).wellFormed 16 32 = false ∧ (Instr.cpb 1 0).wellFormed 16 32 = false ∧
    (Instr.cpb 1 3).wellFormed 16 32 = false ∧ (Instr.cpb 65536 1).wellFormed 16 32 = false ∧
    (Instr.cpb 256 1).wellFormed 16 8 = false ∧ (Instr.cpb 65535 1).wellFormed 16 32 = true := by decide +kernel

theorem test_illformed_configurations :
    (Instr.encode 0x48 3 0 8).wellFormed 16 32 = false ∧ (Instr.encode 0x48 0 0 0).wellFormed 16 32 = false ∧
    (Instr.encode 0x48 0 0 9).wellFormed 16 32 = false ∧ (Instr.fmtCfgw 3 0 8).wellFormed 16 32 = false ∧
    (Instr.fmtCfgw 0 0 0).wellFormed 16 32 = false ∧ (Instr.fmtCfgw 0 0 15).wellFormed 16 32 = false := by
  decide +kernel

theorem test_illformed_diagnostics :
    (Instr.fmtDiag (2 ^ 32) 0 0 0).wellFormed 16 32 = false ∧
    (Instr.fmtDiag 0 (2 ^ 32) 0 0).wellFormed 16 32 = false := by decide +kernel

/-- R4, R71, R91: what makes a configuration invalid, one field at a time. -/
theorem test_invalid_configurations :
    Cfg.valid Cfg.default = true ∧ Cfg.valid { Cfg.default with dataBits := 0 } = false ∧
    Cfg.valid { Cfg.default with dataBits := 9 } = false ∧ Cfg.valid { Cfg.default with cpb := 65 } = false ∧
    Cfg.valid { Cfg.default with baudRate := 115200 } = false ∧
    Cfg.valid { Cfg.default with timingTable := [⟨16000000, 250000, 64⟩, ⟨3, 2, 1⟩] } = false ∧
    Cfg.valid { Cfg.default with cpbWidth := 6 } = false ∧ Cfg.valid { Cfg.default with tsWidth := 6 } = false ∧
    Cfg.valid { Cfg.default with queueCapacity := 0 } = false := by decide +kernel

/-! ## Decoding: each row's word, written out from R62, R66 to R70 and R76 -/

theorem test_decode_request :
    decode Select.reset ⟨.request, 0b1_01001000, []⟩ = .ok (.tx 0x48) ∧
    decode ⟨.stop, .idle, 16, 32⟩ ⟨.request, 0b1_01001000, []⟩ = .ok (.txRefused 0x48) ∧
    decode Select.reset ⟨.request, 0b0_11111111, []⟩ = .ok (.txidle 0xFF) ∧
    decode ⟨.hold, .idle, 16, 32⟩ ⟨.request, 0b0_11111111, []⟩ = .error .notSelected ∧
    decode Select.reset ⟨.request, 0b10_00000000, []⟩ = .error .tooWide := by decide +kernel

theorem test_decode_clock :
    decode ⟨.hold, .idle, 16, 32⟩ ⟨.clock, 0b1_01001000, []⟩ = .ok (.txhold 0x148) ∧
    decode ⟨.data, .idle, 16, 32⟩ ⟨.clock, 0b0_00000001, []⟩ = .ok (.txdata 1) ∧
    decode ⟨.parity, .idle, 16, 32⟩ ⟨.clock, 0, []⟩ = .ok (.txparity 0) ∧
    decode ⟨.stop, .idle, 16, 32⟩ ⟨.clock, 0b1_11111111, []⟩ = .ok (.txstop 0x1FF) ∧
    decode ⟨.finish, .idle, 16, 32⟩ ⟨.clock, 0b1_00000000, []⟩ = .ok (.txend 0x100) ∧
    decode Select.reset ⟨.clock, 0, []⟩ = .error .notSelected := by decide +kernel

theorem test_decode_event :
    decode Select.reset ⟨.event, 0b10_00000000000000000000000001100100, []⟩ = .ok (.evIdle0 100) ∧
    decode Select.reset ⟨.event, 0b11_00000000000000000000000000000001, []⟩ = .ok (.evIdle1 1) ∧
    decode ⟨.idle, .inWord, 16, 32⟩ ⟨.event, 0b11_00000000000000000000000101100100, []⟩ = .ok (.evInword true 356) ∧
    decode ⟨.idle, .parityBit, 16, 32⟩ ⟨.event, 0b10_10000000000000000000000000000000, []⟩
      = .ok (.evParity false 0x80000000) ∧
    decode ⟨.idle, .stopBit, 16, 32⟩ ⟨.event, 0b11_00000000000000000000001001100100, []⟩ = .ok (.evStop1 612) ∧
    decode ⟨.idle, .stopBit, 16, 32⟩ ⟨.event, 0b10_00000000000000000000001001100100, []⟩ = .ok (.evStop0 612) ∧
    decode ⟨.idle, .fault, 16, 32⟩ ⟨.event, 0b11_11111111111111111111111111111111, []⟩
      = .ok (.evFault true 0xFFFFFFFF) ∧
    decode Select.reset ⟨.event, 0b01_00000000000000000000000001100100, []⟩ = .error .noEvent := by decide +kernel

theorem test_decode_strobes :
    decode Select.reset ⟨.reset, 1, []⟩ = .ok .por ∧ decode Select.reset ⟨.resetStrobe, 1, []⟩ = .ok .rxreset ∧
    decode Select.reset ⟨.readStrobe, 1, []⟩ = .ok .rxread ∧
    decode Select.reset ⟨.readStrobe, 0, []⟩ = .error .pattern := by decide +kernel

theorem test_decode_configuration :
    decode Select.reset ⟨.config, 0b0000000001000000, [16000000, 250000]⟩ = .ok (.cpb 16000000 250000) ∧
    decode Select.reset ⟨.config, 2, [3, 2]⟩ = .ok (.cpb 3 2) ∧
    decode Select.reset ⟨.config, 1, [3, 2]⟩ = .error .reserved ∧
    decode Select.reset ⟨.config, 0, [1, 3]⟩ = .error .reserved ∧
    decode Select.reset ⟨.cfgw, 0b0_10_1_0001, []⟩ = .ok (.fmtCfgw 2 1 1) ∧
    decode Select.reset ⟨.cfgw, 0b0_11_0_1000, []⟩ = .error .reserved ∧
    decode Select.reset ⟨.cfgw, 0b1_00_0_1000, []⟩ = .error .reserved ∧
    decode Select.reset ⟨.cfgw, 0b0_00_0_0000, []⟩ = .error .reserved ∧
    decode Select.reset ⟨.cfgw, 0b0_00_0_1001, []⟩ = .error .reserved := by decide +kernel

theorem test_decode_function_and_pseudo :
    decode Select.reset ⟨.function, 0b01001000_0_00_0_0111, []⟩ = .ok (.encode 0x48 0 0 7) ∧
    decode Select.reset ⟨.function, 0b00010101_0_01_1_0101, []⟩ = .ok (.encode 0x15 1 1 5) ∧
    decode Select.reset ⟨.function, 0b01001000_1_00_0_0111, []⟩ = .error .reserved ∧
    decode Select.reset ⟨.print, 0, [0x48, 0x69]⟩ = .ok (.print 0 [0x48, 0x69]) ∧
    decode Select.reset ⟨.println, 0b1_11111111, []⟩ = .ok (.println 0x1FF []) ∧
    decode Select.reset ⟨.print, 0, [256]⟩ = .error .payload := by decide +kernel

theorem test_decode_layouts :
    decode Select.reset ⟨.txreq, 0b1_01001000, []⟩ = .ok (.fmtTxreq true 0x48) ∧
    decode Select.reset ⟨.evt, 0b01_00000000000000000000000001100100, []⟩ = .ok (.fmtEvt false true 100) ∧
    decode Select.reset ⟨.rd, 0b1_01101001, []⟩ = .ok (.fmtRd true 0x69) ∧
    decode Select.reset ⟨.diag,
      0b00000000000000000000000001000001_00000000000000000000000001000000_0100_01, []⟩
      = .ok (.fmtDiag 65 64 4 1) := by decide +kernel

/-- The sixteen frame formats of R62; rows of the table of frames in 41_word_encoder where they are listed. -/
theorem test_decode_frames :
    decode Select.reset ⟨.frame 1 false, 0b0_1_1, []⟩ = .ok (.frame1n 0b1) ∧
    decode Select.reset ⟨.frame 1 true, 0b0_0_1_1, []⟩ = .ok (.frame1p 0b0 true) ∧
    decode Select.reset ⟨.frame 2 false, 0b0_10_1, []⟩ = .ok (.frame2n 0b10) ∧
    decode Select.reset ⟨.frame 2 true, 0b0_10_1_1, []⟩ = .ok (.frame2p 0b10 true) ∧
    decode Select.reset ⟨.frame 3 false, 0b0_011_1, []⟩ = .ok (.frame3n 0b011) ∧
    decode Select.reset ⟨.frame 3 true, 0b0_011_0_1, []⟩ = .ok (.frame3p 0b011 false) ∧
    decode Select.reset ⟨.frame 4 false, 0b0_1001_1, []⟩ = .ok (.frame4n 0b1001) ∧
    decode Select.reset ⟨.frame 4 true, 0b0_1000_1_1, []⟩ = .ok (.frame4p 0b1000 true) ∧
    decode Select.reset ⟨.frame 5 false, 0b0_10101_1, []⟩ = .ok (.frame5n 0b10101) ∧
    decode Select.reset ⟨.frame 5 true, 0b0_10101_0_1, []⟩ = .ok (.frame5p 0b10101 false) ∧
    decode Select.reset ⟨.frame 6 false, 0b0_101001_1, []⟩ = .ok (.frame6n 0b101001) ∧
    decode Select.reset ⟨.frame 6 true, 0b0_100101_1_1, []⟩ = .ok (.frame6p 0b100101 true) ∧
    decode Select.reset ⟨.frame 7 false, 0b0_0001001_1, []⟩ = .ok (.frame7n 0b0001001) ∧
    decode Select.reset ⟨.frame 7 true, 0b0_1001000_0_1, []⟩ = .ok (.frame7p 0b1001000 false) ∧
    decode Select.reset ⟨.frame 8 false, 0b0_00010010_1, []⟩ = .ok (.frame8n 0b00010010) ∧
    decode Select.reset ⟨.frame 8 true, 0b0_11100000_1_1, []⟩ = .ok (.frame8p 0b11100000 true) := by decide +kernel

theorem test_decode_frames_refused :
    decode Select.reset ⟨.frame 1 false, 0b1_1_1, []⟩ = .error .pattern ∧
    decode Select.reset ⟨.frame 8 true, 0b0_11100000_1_0, []⟩ = .error .pattern ∧
    decode Select.reset ⟨.frame 9 false, 1, []⟩ = .error .noSuchFormat ∧
    decode Select.reset ⟨.frame 5 true, 0b1_0_10101_0_1, []⟩ = .error .tooWide := by decide +kernel

/-- Bare words of the table, each row's fixed bits and a value of its own. -/
theorem test_table_words :
    decodeTableWord 16 0b01001000_0_00_0_0111 = some (.encode 0x48 0 0 7) ∧
    decodeTableWord 8 0b0_10101_0_1 = some (.frame5p 0b10101 false) ∧
    decodeTableWord 8 0b0_10_1_1000 = some (.fmtCfgw 2 1 8) ∧
    decodeTableWord 40 0b10_00000000000000000000000001100100 = some (.evIdle0 100) ∧
    decodeTableWord 72 0b1_000000 = some (.fmtDiag 0 1 0 0) := by decide +kernel

/-! ## The transmitter: the examples of 42_transmission_driver -/

/-- R121's example. -/
theorem test_tx_accept :
    (goesTo (exec (.tx 0x48) { idleOf cfgA with cyc := 100 })).map (fun t => (t.tx, t.out.wr)) =
      some (⟨false, 0x48, 7, false, .start, 63, true⟩, some ⟨false, 100⟩) := by decide +kernel

/-- R104, R121: `0xC8` and 7 data bits under MSB, Odd: the word is 0x48, left-aligned 0x90, parity ~e = 1. -/
theorem test_tx_accept_aligns :
    (goesTo (exec (.tx 0xC8) (idleOf (cfgOf 7 .msb .odd)))).map (fun t => (t.tx.shift, t.tx.par)) =
      some (0x90, true) := by decide +kernel

theorem test_txRefused :
    goesTo (exec (.txRefused 0x48) (flying cfgA .data false 0x24 6 false 10)) =
      some (flying cfgA .data false 0x24 6 false 10) := by decide +kernel

theorem test_txidle :
    (goesTo (exec (.txidle 0x48) { idleOf cfgA with out := ⟨some ⟨true, 5⟩, none⟩ })).map (fun t => (t.tx, t.out.wr)) =
      some (State.reset.tx, none) := by decide +kernel

/-- R123's example, its first hold step. -/
theorem test_txhold :
    (goesTo (exec (.txhold 0) (flying cfgA .start false 0x48 7 false 63))).map (fun t => (t.tx, t.out.wr)) =
      some (⟨false, 0x48, 7, false, .start, 62, true⟩, none) := by decide +kernel

/-- R124's two examples. -/
theorem test_txdata_lsb :
    (goesTo (exec (.txdata 0) (flying cfgA .start false 0x48 7 false 0))).map (fun t => (t.tx, t.out.wr)) =
      some (⟨false, 0x24, 6, false, .data, 63, true⟩, some ⟨false, 0⟩) := by decide +kernel

theorem test_txdata_msb :
    (goesTo (exec (.txdata 0) (flying (cfgOf 7 .msb .none) .data false 0x90 1 false 0))).map (fun t => (t.tx, t.out.wr))
      = some (⟨true, 0x20, 0, false, .data, 63, true⟩, some ⟨true, 0⟩) := by decide +kernel

/-- R125: Even, the parity level loaded for 0x07. -/
theorem test_txparity :
    (goesTo (exec (.txparity 0) { flying (cfgOf 8 .lsb .even) .data false 0 0 true 0 with cyc := 112 })).map
      (fun t => (t.tx, t.out.wr)) = some (⟨true, 0, 0, true, .parity, 63, true⟩, some ⟨true, 112⟩) := by decide +kernel

/-- R126: a stop segment after data with no parity; not performed where a parity segment is due. -/
theorem test_txstop :
    (goesTo (exec (.txstop 0) (flying cfgA .data true 0 0 false 0))).map (fun t => (t.tx, t.out.wr)) =
      some (⟨true, 0, 0, false, .stop, 63, true⟩, some ⟨true, 0⟩) ∧
    goesTo (exec (.txstop 0) (flying (cfgOf 7 .lsb .odd) .data true 0 0 false 0)) =
      some (flying (cfgOf 7 .lsb .odd) .data true 0 0 false 0) := by decide +kernel

theorem test_txend :
    (goesTo (exec (.txend 0x148) (flying cfgA .stop true 0 0 false 0))).map (fun t => (t.tx, t.out.wr)) =
      some (⟨true, 0, 0, false, .idle, 0, false⟩, none) := by decide +kernel

/-! ## The receiver: the examples of 43_reference_receiver -/

theorem test_evIdle0 :
    (goesTo (exec (.evIdle0 100) (idleOf cfgA))).map (·.rx) = some ⟨.inWord, 0, 7, 100, Diag.clear⟩ := by decide +kernel

theorem test_evIdle1 : goesTo (exec (.evIdle1 100) (idleOf cfgA)) = some (idleOf cfgA) := by decide +kernel

/-- R154's first example. -/
theorem test_evInword_lsb :
    (goesTo (exec (.evInword true 356) (hearing cfgA .inWord 0x00 4 292))).map (·.rx) =
      some ⟨.inWord, 0x80, 3, 356, Diag.clear⟩ := by decide +kernel

/-- R154's second and third examples. -/
theorem test_evInword_msb :
    (goesTo (exec (.evInword true 320) (hearing (cfgOf 5 .msb .even) .inWord 0x0A 1 256))).map (·.rx) =
      some ⟨.parityBit, 0x15, 0, 320, Diag.clear⟩ ∧
    (goesTo (exec (.evInword true 321) (hearing (cfgOf 5 .msb .even) .inWord 0x0A 1 256))).map
      (fun t => (t.rx.state, t.rx.diag)) = some (.fault, ⟨.timingGlitch, 64, 65, 4⟩) := by decide +kernel

/-- R155's examples. -/
theorem test_evParity_even :
    (goesTo (exec (.evParity true 64) (hearing (cfgOf 5 .msb .even) .parityBit 0x15 0 0))).map (·.rx.state) =
      some .stopBit ∧
    (goesTo (exec (.evParity false 64) (hearing (cfgOf 5 .msb .even) .parityBit 0x15 0 0))).map
      (fun t => (t.rx.state, t.rx.diag)) = some (.fault, ⟨.parityMismatch, 1, 0, 5⟩) := by decide +kernel

theorem test_evParity_odd :
    (goesTo (exec (.evParity false 64) (hearing (cfgOf 8 .lsb .odd) .parityBit 0x07 0 0))).map (·.rx.state) =
      some .stopBit ∧
    (goesTo (exec (.evParity true 64) (hearing (cfgOf 8 .lsb .odd) .parityBit 0x07 0 0))).map
      (fun t => (t.rx.state, t.rx.diag)) = some (.fault, ⟨.parityMismatch, 0, 1, 8⟩) := by decide +kernel

/-- R156's example. -/
theorem test_evStop1 :
    (goesTo (exec (.evStop1 612) (hearing cfgA .stopBit 0x90 0 548))).map (fun t => (t.rx.state, t.queue)) =
      some (.idle, ⟨[(0, 0x48)], 0, 1, false⟩) := by decide +kernel

/-- R43: a push to a full queue of two under the two policies. -/
theorem test_evStop1_full :
    (goesTo (exec (.evStop1 612) (State.holding 1 [1, 2] (hearing (cfgTwo .dropNewest) .stopBit 0x90 0 548)))).map
      (fun t => (t.rx.state, t.queue)) = some (.idle, ⟨[(0, 2), (1, 1)], 1, 2, true⟩) ∧
    (goesTo (exec (.evStop1 612) (State.holding 1 [1, 2] (hearing (cfgTwo .overwriteOldest) .stopBit 0x90 0 548)))).map
      (fun t => (t.rx.state, t.queue)) = some (.idle, ⟨[(0, 2), (1, 0x48)], 0, 2, true⟩) := by decide +kernel

/-- R157 under its three policies, and a mistimed event. -/
theorem test_evStop0 :
    (goesTo (exec (.evStop0 612) (hearing cfgA .stopBit 0x90 0 548))).map (fun t => (t.rx.state, t.queue.count)) =
      some (.idle, 0) ∧
    (goesTo (exec (.evStop0 612) (hearing { cfgA with stop0Policy := .commitAnyway } .stopBit 0x90 0 548))).map
      (fun t => (t.rx.state, t.queue.mem)) = some (.idle, [(0, 0x48)]) := by decide +kernel

theorem test_evStop0_framing :
    (goesTo (exec (.evStop0 612) (hearing { cfgA with stop0Policy := .framingFault } .stopBit 0x90 0 548))).map
      (fun t => (t.rx.state, t.rx.diag)) = some (.fault, ⟨.framingError, 1, 0, 7⟩) ∧
    (goesTo (exec (.evStop0 613) (hearing { cfgA with stop0Policy := .framingFault } .stopBit 0x90 0 548))).map
      (fun t => (t.rx.state, t.rx.diag)) = some (.fault, ⟨.timingGlitch, 64, 65, 7⟩) := by decide +kernel

/-- R153's last example: a frame that straddles a wrap of the timestamp. -/
theorem test_elapsed_wraps :
    (hearing cfgA .inWord 0 7 0xFFFFFFF0).elapsed 0x30 = 64 ∧ (hearing cfgA .inWord 0 7 164).elapsed 229 = 65 := by
  decide +kernel

/-- R158's example. -/
theorem test_evFault :
    goesTo (exec (.evFault true 900) (faulty ⟨.timingGlitch, 64, 65, 2⟩)) = some (faulty ⟨.timingGlitch, 64, 65, 2⟩) := by
  decide +kernel

/-- R159's example. -/
theorem test_rxreset :
    (goesTo (exec .rxreset (State.holding 0 [0x48, 0x69] (faulty ⟨.parityMismatch, 1, 0, 8⟩)))).map
      (fun t => (t.rx, t.queue.count)) = some (⟨.idle, 0, 0, 0, ⟨.none, 0, 0, 0⟩⟩, 2) := by decide +kernel

/-- R160's example, its first and third reads. -/
theorem test_rxread :
    (goesTo (exec .rxread (State.holding 15 [0x48, 0x69] (idleOf Cfg.default)))).map
      (fun t => (t.out.rd, t.queue.head, t.queue.count)) = some (some ⟨true, 0x48⟩, 0, 1) ∧
    (goesTo (exec .rxread (idleOf Cfg.default))).map (·.out.rd) = some (some ⟨false, 0x00⟩) := by decide +kernel

/-! ## Reset and configuration -/

theorem test_por :
    (goesTo (exec .por { flying cfgA .data false 0x24 6 false 10 with cyc := 77 })).map
      (fun t => (t.tx, t.cyc, t.cfg)) = some (State.reset.tx, 0, cfgA) := by decide +kernel

/-- R90's examples: the source's pair, and the tie 3 / 2. -/
theorem test_cpb :
    (goesTo (exec (.cpb 16000000 250000) State.reset)).map (·.cfg.cpb) = some 64 ∧
    (goesTo (exec (.cpb 3 2) { State.reset with cfg :=
      { Cfg.default with timingTable := [⟨16000000, 250000, 64⟩, ⟨3, 2, 2⟩] } })).map (·.cfg.cpb) = some 2 := by
  decide +kernel

theorem test_cpb_refused :
    isConfigError (exec (.cpb 16000000 115200) State.reset) = true ∧
    isConfigError (exec (.cpb 1 3) { State.reset with cfg := { Cfg.default with timingTable := [⟨1, 3, 0⟩] } }) = true := by
  decide +kernel

/-- R66: CFGW 0x51 is (1, MSB, Odd). -/
theorem test_fmtCfgw :
    (goesTo (exec (.fmtCfgw 2 1 1) State.reset)).map (fun t => (t.cfg.dataBits, t.cfg.bitOrder, t.cfg.parityMode)) =
      some (1, .msb, .odd) ∧
    isConfigError (exec (.fmtCfgw 3 0 8) State.reset) = true := by decide +kernel

/-! ## The encoder and the host's lines -/

/-- The source's scenario A, and a row of the table of frames: 0x15 (5, MSB, Even) is `0 10101 1 1`. -/
theorem test_encode :
    (goesTo (exec (.encode 0x48 0 0 7) State.reset)).map (·.obs.levels) =
      some [false, false, false, false, true, false, false, true, true] ∧
    (goesTo (exec (.encode 0x15 1 1 5) State.reset)).map (·.obs.levels) =
      some [false, true, false, true, false, true, true, true] := by decide +kernel

/-- Rows of the table of frames: 0xC8 (7, LSB, Even) is `0 0001001 0 1`; 0x00 (1, MSB, Odd) is `0 0 1 1`. -/
theorem test_encode_parity :
    (goesTo (exec (.encode 0xC8 1 0 7) State.reset)).map (·.obs.levels) =
      some [false, false, false, false, true, false, false, true, false, true] ∧
    (goesTo (exec (.encode 0x00 2 1 1) State.reset)).map (·.obs.levels) = some [false, false, true, true] := by
  decide +kernel

/-- R191's example. -/
theorem test_println :
    (goesTo (exec (.println 0 [0x48, 0x69]) State.reset)).map (·.host) =
      some [.tx 0x48, .tx 0x69, .tx 0x0D, .tx 0x0A] := by decide +kernel

theorem test_print :
    (goesTo (exec (.print 0 [0x48, 0x69]) { State.reset with host := [.rxRead] })).map (·.host) =
      some [.tx 0x48, .tx 0x69, .rxRead] := by decide +kernel

/-! ## Layouts -/

theorem test_fmtTxreq :
    (goesTo (exec (.fmtTxreq true 0x48) State.reset)).map (·.inp.txreq) = some 0b1_01001000 := by decide +kernel

theorem test_fmtEvt :
    (goesTo (exec (.fmtEvt true false 100) State.reset)).map (·.inp.evt) = some (some 0x200000064) := by decide +kernel

theorem test_fmtRd :
    (goesTo (exec (.fmtRd false 0) { State.reset with out := ⟨none, some ⟨true, 0x48⟩⟩ })).map (·.obs.rd) =
      some 0b1_01001000 := by decide +kernel

/-- R69: `TimingGlitch{64, 65, 2}` packed. -/
theorem test_fmtDiag :
    (goesTo (exec (.fmtDiag 0 0 0 0) (faulty ⟨.timingGlitch, 64, 65, 2⟩))).map (·.obs.diag) =
      some 0b01000001_00000000000000000000000001000000_0010_01 := by decide +kernel

/-! ## Frame formats: rows of the table of frames on the instances they belong to -/

theorem test_frame_1 :
    (goesTo (exec (.frame1n 1) (idleOf (cfgOf 1 .lsb .none)))).map (·.host) = some [.tx 0x01] ∧
    (goesTo (exec (.frame1p 0 true) (idleOf (cfgOf 1 .msb .odd)))).map (·.host) = some [.tx 0x00] := by decide +kernel

theorem test_frame_2 :
    (goesTo (exec (.frame2n 0b10) (idleOf (cfgOf 2 .lsb .none)))).map (·.host) = some [.tx 0x01] ∧
    (goesTo (exec (.frame2p 0b10 true) (idleOf (cfgOf 2 .lsb .even)))).map (·.host) = some [.tx 0x01] := by
  decide +kernel

theorem test_frame_3 :
    (goesTo (exec (.frame3n 0b110) (idleOf (cfgOf 3 .lsb .none)))).map (·.host) = some [.tx 0x03] ∧
    (goesTo (exec (.frame3p 0b110 false) (idleOf (cfgOf 3 .msb .even)))).map (·.host) = some [.tx 0x06] := by
  decide +kernel

theorem test_frame_4 :
    (goesTo (exec (.frame4n 0b1000) (idleOf (cfgOf 4 .msb .none)))).map (·.host) = some [.tx 0x08] ∧
    (goesTo (exec (.frame4p 0b1000 false) (idleOf (cfgOf 4 .lsb .odd)))).map (·.host) = some [.tx 0x01] := by
  decide +kernel

theorem test_frame_5 :
    (goesTo (exec (.frame5n 0b10101) (idleOf (cfgOf 5 .msb .none)))).map (·.host) = some [.tx 0x15] ∧
    (goesTo (exec (.frame5p 0b10101 false) (idleOf (cfgOf 5 .lsb .odd)))).map (·.host) = some [.tx 0x15] := by
  decide +kernel

theorem test_frame_6 :
    (goesTo (exec (.frame6n 0b101001) (idleOf (cfgOf 6 .lsb .none)))).map (·.host) = some [.tx 0x25] ∧
    (goesTo (exec (.frame6p 0b100101 true) (idleOf (cfgOf 6 .msb .even)))).map (·.host) = some [.tx 0x25] := by
  decide +kernel

theorem test_frame_7 :
    (goesTo (exec (.frame7n 0b0001001) (idleOf cfgA))).map (·.host) = some [.tx 0x48] ∧
    (goesTo (exec (.frame7p 0b1001000 false) (idleOf (cfgOf 7 .msb .even)))).map (·.host) = some [.tx 0x48] := by
  decide +kernel

/-- The second: on an instance without parity the word is no frame of TX, and the bench sends its eleven levels. -/
theorem test_frame_8 :
    (goesTo (exec (.frame8n 0b00010010) (idleOf Cfg.default))).map (·.host) = some [.tx 0x48] ∧
    (goesTo (exec (.frame8p 0b11100000 false) (idleOf Cfg.default))).map (fun t => (t.host.length, t.host.take 3)) =
      some (22, [.ev false 0, .hold 63, .ev true 64]) := by decide +kernel

/-! ## Steps -/

/-- R230: the first step after POR has `cyc` 0, and a request in it is accepted with timestamp 0. -/
theorem test_step_accepts :
    (goesTo (step { State.reset with host := [.tx 0x48] })).map (fun t => (t.tx.seg, t.out.wr, t.rx.state, t.cyc)) =
      some (.start, some ⟨false, 0⟩, .inWord, 1) := by decide +kernel

theorem test_step_runs_the_table_word :
    (goesTo (step (State.reset.withFetchWord 16 0b01001000_0_00_0_0111))).map (fun t => (t.obs.levels, t.cyc)) =
      some ([false, false, false, false, true, false, false, true, true], 0) := by decide +kernel

/-! ## Witnesses: for each statement with hypotheses, a state and operands that meet them -/

/-- A run has started and no line is pending; a good state. -/
def start : State := idleOf Cfg.default

/-- A good state with a frame in flight, its stop segment over, and the receiver idle again. -/
def atEnd : State := flying cfgA .stop true 0 0 false 0

/-- A good state of a receiver that awaits a stop event, on a queue of two entries. -/
def atStop (p : OverflowPolicy) (bs : List Byte) : State :=
  State.holding 1 bs (hearing (cfgTwo p) .stopBit 0x90 0 548)

/-- The same wired (the spec's vector V-Q4): TX at the boundary of its stop segment in the step of the read. -/
def wiredStop (bs : List Byte) : State :=
  { atStop .dropNewest bs with cyc := 612, tx := ⟨true, 0, 0, false, .data, 0, true⟩ }

theorem wiredStop_good : good (wiredStop [1, 2]) = true ∧ good (wiredStop []) = true := by decide +kernel
theorem start_good : good start = true := by decide +kernel
theorem atEnd_good : good atEnd = true := by decide +kernel
theorem atStop_good : good (atStop .dropNewest [1, 2]) = true ∧ good (atStop .dropNewest []) = true := by
  decide +kernel

theorem witness_DecodeOfEncode :
    (Instr.evInword true (2 ^ 32 - 1)).wellFormed 16 32 = true ∧
    (Instr.evInword true (2 ^ 32 - 1)).selectedBy ⟨.idle, .inWord, 16, 32⟩ = true ∧
    (Instr.cpb 65535 1).wellFormed 16 32 = true ∧ (Instr.cpb 65535 1).selectedBy Select.reset = true := by
  decide +kernel

theorem witness_EncodeOfDecode :
    ∃ i, decode ⟨.idle, .stopBit, 16, 32⟩ ⟨.event, 0x2FFFFFFFF, []⟩ = .ok i := ⟨.evStop0 0xFFFFFFFF, by decide +kernel⟩

theorem witness_ConfigurationWordLayout :
    ((0 : Nat) < 256 ∧ 0 % 16 = 0) ∧ (9 < 256 ∧ 8 < 9 % 16) ∧ (0x68 < 256 ∧ 0x68 / 32 % 4 = 3) ∧
    (0x88 < 256 ∧ 0x88 / 128 = 1) ∧
    (0x01 < 256 ∧ 1 ≤ 0x01 % 16 ∧ 0x01 % 16 ≤ 8 ∧ 0x01 / 32 % 4 ≠ 3 ∧ 0x01 / 128 = 0) ∧
    (0x58 < 256 ∧ 1 ≤ 0x58 % 16 ∧ 0x58 % 16 ≤ 8 ∧ 0x58 / 32 % 4 ≠ 3 ∧ 0x58 / 128 = 0) ∧
    2 ^ Select.reset.cpbWidth ≤ 65536 := by decide +kernel

theorem witness_StepRunsInstructionOffThePorts :
    start.cfg.valid = true ∧ (Instr.encode 0x48 0 0 7).wellFormed 16 32 = true ∧
    onPort (encode 32 (.encode 0x48 0 0 7)).fmt = false ∧
    { start with host := [.code (encode 32 (.encode 0x48 0 0 7))] }.host
      = .code (encode start.cfg.tsWidth (.encode 0x48 0 0 7)) :: [] := by decide +kernel

theorem witness_StepRunsTransmitterInstruction :
    start.cfg.valid = true ∧ start.inp = Ports.quiet ∧
    (Instr.tx 0x48).selectedBy start.select = true ∧ (encode 32 (.tx 0x48)).fmt = .request ∧
    (Instr.txidle 0).selectedBy start.select = true ∧
    (Instr.txend 0).selectedBy atEnd.select = true ∧ (encode 32 (.txend 0)).fmt = .clock ∧
    (Instr.txRefused 0x48).selectedBy atEnd.select = true := by decide +kernel

theorem witness_StepRunsEventInstruction :
    start.cfg.valid = true ∧ start.inp = Ports.quiet ∧ (Instr.evIdle0 100).selectedBy start.select = true ∧
    (Instr.evIdle0 100).wellFormed start.cfg.cpbWidth start.cfg.tsWidth = true ∧
    (encode start.cfg.tsWidth (.evIdle0 100)).fmt = .event := by decide +kernel

theorem witness_StepRunsStrobes :
    start.cfg.valid = true ∧ start.inp = Ports.quiet ∧
    { start with host := [.code (encode 32 .por)] }.host = .code (encode start.cfg.tsWidth .por) :: [] ∧
    { start with host := [.code (encode 32 .rxread)] }.host = .code (encode start.cfg.tsWidth .rxread) :: [] ∧
    { start with host := [.code (encode 32 .rxreset)] }.host = .code (encode start.cfg.tsWidth .rxreset) :: [] := by
  decide +kernel

theorem witness_AcceptLoadsTheFrameAndWritesStart : start.tx.seg = .idle := rfl

theorem witness_RequestBitsAboveTheWordAreIgnored :
    ∀ i, i < cfgA.dataBits.toNat → (0xC8 : Byte).getLsbD i = (0x48 : Byte).getLsbD i := by decide +kernel

theorem witness_RequestsDuringAFrameHaveNoEffect : atEnd.tx.seg ≠ .idle := by decide

/-- One state for each of the selections of R120. -/
theorem witness_OneTransmitterOperationAStep :
    (start.tx.seg = .idle ∧ (0x148 : BitVec 9).getLsbD 8 = true) ∧
    (start.tx.seg = .idle ∧ (0x0FF : BitVec 9).getLsbD 8 = false) ∧
    ((flying cfgA .start false 0x48 7 false 63).tx.seg ≠ .idle ∧ (flying cfgA .start false 0x48 7 false 63).tx.cnt ≠ 0) ∧
    ((flying cfgA .start false 0x48 7 false 0).tx.cnt = 0 ∧ (flying cfgA .start false 0x48 7 false 0).tx.seg = .start ∧
      (flying cfgA .start false 0x48 7 false 0).tx.rem ≠ 0) ∧
    ((flying (cfgOf 8 .lsb .even) .data true 0 0 true 0).tx.rem = 0 ∧ (cfgOf 8 .lsb .even).parityMode ≠ .none) ∧
    ((flying cfgA .data true 0 0 false 0).tx.rem = 0 ∧ cfgA.parityMode = .none) ∧
    ((flying (cfgOf 8 .lsb .even) .parity true 0 0 true 0).tx.seg = .parity ∧
      (flying (cfgOf 8 .lsb .even) .parity true 0 0 true 0).tx.cnt = 0) ∧
    (atEnd.tx.seg = .stop ∧ atEnd.tx.cnt = 0) := by decide +kernel

theorem witness_IdleAndHoldSteps :
    (start.tx.seg = .idle ∧ start.Inv) ∧
    ((flying cfgA .stop true 0 0 false 1).tx.seg ≠ .idle ∧ (flying cfgA .stop true 0 0 false 1).tx.cnt ≠ 0) :=
  ⟨⟨rfl, inv_of_good start_good⟩, by decide⟩

/-- The last data segment of 0x48 under LSB, and the first one under MSB. -/
theorem witness_DataSegmentShiftsAndWrites :
    ((flying cfgA .data true 0x01 1 false 0).tx.cnt = 0 ∧ (flying cfgA .data true 0x01 1 false 0).tx.rem ≠ 0 ∧
      6 < 7 ∧ (flying cfgA .data true 0x01 1 false 0).tx.shift = ((0x48 : Byte) &&& BitVec.ofNat 8 (2 ^ 7 - 1)) >>> 6) ∧
    ((flying (cfgOf 7 .msb .none) .start false 0x90 7 false 0).tx.shift
      = ((0x48 : Byte) &&& BitVec.ofNat 8 (2 ^ 7 - 1)) <<< (8 - 7) <<< 0) := by decide +kernel

theorem witness_ParityAndStopSegmentsWrite :
    ((flying (cfgOf 8 .lsb .odd) .data true 0 0 true 0).tx.seg = .data ∧
      (flying (cfgOf 8 .lsb .odd) .data true 0 0 true 0).tx.cnt = 0 ∧
      (flying (cfgOf 8 .lsb .odd) .data true 0 0 true 0).tx.rem = 0 ∧ (cfgOf 8 .lsb .odd).parityMode ≠ .none) ∧
    ((flying cfgA .data true 0 0 false 0).tx.seg = .data ∧ cfgA.parityMode = .none) ∧
    (flying (cfgOf 8 .lsb .odd) .parity true 0 0 true 0).tx.seg = .parity := by decide +kernel

theorem witness_FrameEndReleasesTheExclusiveSection :
    atEnd.tx.seg = .stop ∧ atEnd.tx.cnt = 0 ∧ atEnd.Inv ∧
    ∃ t, cycle { Ports.quiet with txreq := 0x148 } atEnd = .next t :=
  ⟨rfl, rfl, inv_of_good atEnd_good, _, rfl⟩

theorem witness_TransmitterOperationsLeaveTheReceiver :
    (encode 32 (.tx 0x48)).fmt = .request ∧ (encode 32 (.txdata 0)).fmt = .clock := by decide

theorem witness_UnselectedOperationsAreNotPerformed :
    (onPort (encode 32 (.txdata 0)).fmt = true ∧ (Instr.txdata 0).selectedBy start.select = false) ∧
    ({ start with cfg := { Cfg.default with verify := false } }.cfg.verify = false ∧
      (encode 32 .rxread).fmt = .readStrobe) := by decide +kernel

theorem witness_EventsInIdle : start.cfg.verify = true ∧ start.rx.state = .idle := by decide

/-- A data event on time across a wrap of the timestamp, and one a cycle late. -/
theorem witness_DataEvent :
    (hearing cfgA .inWord 0 1 0xFFFFFFF0).cfg.verify = true ∧
    (hearing cfgA .inWord 0 1 0xFFFFFFF0).rx.state = .inWord ∧ 0xFFFFFFF0 < 2 ^ cfgA.tsWidth ∧
    (0x30 + 2 ^ cfgA.tsWidth - 0xFFFFFFF0) % 2 ^ cfgA.tsWidth = cfgA.cpb ∧
    (0x31 + 2 ^ cfgA.tsWidth - 0xFFFFFFF0) % 2 ^ cfgA.tsWidth ≠ cfgA.cpb := by decide +kernel

theorem witness_MistimedEventIsATimingGlitch :
    start.cfg.verify = true ∧ 100 < 2 ^ cfgA.tsWidth ∧ (100 + 2 ^ cfgA.tsWidth - 100) % 2 ^ cfgA.tsWidth ≠ cfgA.cpb ∧
    (hearing cfgA .inWord 0 1 100).rx.state = .inWord ∧
    (hearing (cfgOf 8 .lsb .odd) .parityBit 0 0 100).rx.state = .parityBit ∧
    (hearing cfgA .stopBit 0 0 100).rx.state = .stopBit := by decide +kernel

theorem witness_ParityEvent :
    (hearing (cfgOf 8 .lsb .odd) .parityBit 7 0 0).cfg.verify = true ∧
    (hearing (cfgOf 8 .lsb .odd) .parityBit 7 0 0).rx.state = .parityBit ∧
    0 < 2 ^ (cfgOf 8 .lsb .odd).tsWidth ∧ (64 + 2 ^ 32 - 0) % 2 ^ 32 = (cfgOf 8 .lsb .odd).cpb ∧
    (63 + 2 ^ 32 - 0) % 2 ^ 32 ≠ (cfgOf 8 .lsb .odd).cpb := by decide +kernel

theorem witness_StopEventCommits :
    (atStop .dropNewest [1]).cfg.verify = true ∧ (atStop .dropNewest [1]).rx.state = .stopBit ∧
    548 < 2 ^ cfgA.tsWidth ∧ (atStop .dropNewest [1]).queue.head < (atStop .dropNewest [1]).cfg.queueCapacity ∧
    (612 + 2 ^ 32 - 548) % 2 ^ 32 = cfgA.cpb ∧ (611 + 2 ^ 32 - 548) % 2 ^ 32 ≠ cfgA.cpb ∧
    (atStop .dropNewest [1]).queue.count < (atStop .dropNewest [1]).cfg.queueCapacity ∧
    (atStop .dropNewest [1, 2]).cfg.queueCapacity ≤ (atStop .dropNewest [1, 2]).queue.count := by decide +kernel

theorem witness_PushToTheQueue :
    (atStop .overwriteOldest [1, 2]).cfg.verify = true ∧ (atStop .overwriteOldest [1, 2]).rx.state = .stopBit ∧
    (atStop .overwriteOldest [1, 2]).onTime 612 = true ∧
    (atStop .overwriteOldest [1, 2]).queue.head < (atStop .overwriteOldest [1, 2]).cfg.queueCapacity ∧
    (atStop .overwriteOldest [1, 2]).queue.count = (atStop .overwriteOldest [1, 2]).cfg.queueCapacity ∧
    (atStop .dropNewest [1, 2]).queue.count = (atStop .dropNewest [1, 2]).cfg.queueCapacity ∧
    (atStop .dropNewest [1]).queue.count < (atStop .dropNewest [1]).cfg.queueCapacity := by decide +kernel

theorem witness_StopEventOfLevelZero :
    (hearing cfgA .stopBit 0x90 0 548).cfg.verify = true ∧ (hearing cfgA .stopBit 0x90 0 548).rx.state = .stopBit ∧
    548 < 2 ^ cfgA.tsWidth ∧ (612 + 2 ^ 32 - 548) % 2 ^ 32 = cfgA.cpb ∧ cfgA.stop0Policy = .dropSilently ∧
    (613 + 2 ^ 32 - 548) % 2 ^ 32 ≠ cfgA.cpb := by decide +kernel

theorem witness_FaultIgnoresEveryEvent : (faulty ⟨.timingGlitch, 64, 65, 2⟩).rx.state = .fault := rfl

theorem witness_ReceiverResetClearsTheReceiver :
    start.cfg.verify = true ∧ ∃ t, cycle { Ports.quiet with rxReset := true, txreq := 0x148 } start = .next t :=
  ⟨rfl, _, rfl⟩

theorem witness_ReadAnswersTheOldestEntry :
    start.queue.count = 0 ∧ (atStop .dropNewest [1, 2]).queue.count ≠ 0 ∧
    (atStop .dropNewest [1, 2]).queue.head < (atStop .dropNewest [1, 2]).cfg.queueCapacity := by decide +kernel

theorem witness_ProductionHasNoReceiver :
    { start with cfg := { Cfg.default with verify := false } }.cfg.verify = false ∧
    ∃ t, cycle { Ports.quiet with rxRead := true, rxReset := true }
      { start with cfg := { Cfg.default with verify := false } } = .next t := ⟨rfl, _, rfl⟩

theorem witness_FaultEndsOnlyByReset :
    (faulty ⟨.timingGlitch, 64, 65, 2⟩).rx.state = .fault ∧ (faulty ⟨.timingGlitch, 64, 65, 2⟩).cfg.verify = true ∧
    (∃ t, cycle { Ports.quiet with evt := some 0x200000064 } (faulty ⟨.timingGlitch, 64, 65, 2⟩) = .next t) ∧
    (∃ t, cycle { Ports.quiet with rxReset := true } (faulty ⟨.timingGlitch, 64, 65, 2⟩) = .next t) ∧
    (∃ t, cycle { Ports.quiet with por := true } (faulty ⟨.timingGlitch, 64, 65, 2⟩) = .next t) :=
  ⟨rfl, rfl, ⟨_, rfl⟩, ⟨_, rfl⟩, ⟨_, rfl⟩⟩

theorem witness_ReadDataIsRightAligned :
    (atStop .dropNewest [1, 2]).Inv ∧ (atStop .dropNewest [1, 2]).cfg.verify = true :=
  ⟨inv_of_good atStop_good.1, rfl⟩

theorem witness_QueueIsFirstInFirstOut :
    QueueOk (atStop .dropNewest [1, 2]).cfg (atStop .dropNewest [1, 2]).queue ∧
    (atStop .dropNewest [1, 2]).cfg.verify = true ∧ (atStop .dropNewest [1, 2]).queued = 1 :: [2] ∧
    (atStop .dropNewest [1, 2]).rx.state = .stopBit ∧ (atStop .dropNewest [1, 2]).onTime 612 = true :=
  ⟨(inv_of_good atStop_good.1).queue, rfl, by decide +kernel, rfl, by decide +kernel⟩

theorem witness_ReadIsServedBeforeTheCommit :
    (atStop .dropNewest [1, 2]).Inv ∧ (atStop .dropNewest [1, 2]).rx.state = .stopBit ∧
    (atStop .dropNewest [1, 2]).onTime 612 = true ∧ 612 < (atStop .dropNewest [1, 2]).cfg.tsMod ∧
    (atStop .dropNewest [1, 2]).queue.count = (atStop .dropNewest [1, 2]).cfg.queueCapacity ∧
    (atStop .dropNewest []).Inv ∧ (atStop .dropNewest []).queue.count = 0 :=
  ⟨inv_of_good atStop_good.1, rfl, by decide +kernel, by decide +kernel, by decide +kernel,
    inv_of_good atStop_good.2, rfl⟩

/-- The wired form, on a full and on an empty queue. -/
theorem witness_ReadIsServedBeforeTheCommit_wired :
    ((wiredStop [1, 2]).Inv ∧ (wiredStop []).Inv) ∧ (wiredStop [1, 2]).rx.state = .stopBit ∧
    ({ Ports.quiet with rxRead := true }.evt = none ∧ 612 = (wiredStop [1, 2]).cyc ∧ (wiredStop [1, 2]).tx.cnt = 0 ∧
      (wiredStop [1, 2]).tx.seg = .data ∧ (wiredStop [1, 2]).tx.rem = 0 ∧
      (wiredStop [1, 2]).cfg.parityMode = .none) ∧
    (wiredStop [1, 2]).onTime 612 = true ∧ (wiredStop [1, 2]).queue.count = (wiredStop [1, 2]).cfg.queueCapacity ∧
    (wiredStop []).queue.count = 0 :=
  ⟨⟨inv_of_good wiredStop_good.1, inv_of_good wiredStop_good.2⟩, rfl, by decide, by decide +kernel, by decide +kernel, rfl⟩

/-- R54 on the wired stream: the oldest byte is answered and the byte of this step's stop event is kept. -/
theorem test_read_before_wired_commit :
    (goesTo (cycle { Ports.quiet with rxRead := true } (wiredStop [1, 2]))).map
      (fun t => (t.out, t.queued, t.queue.overflow)) =
      some (⟨some ⟨true, 612⟩, some ⟨true, 1⟩⟩, [2, 0x48], false) := by decide +kernel

theorem witness_PowerOnResetsEveryElement : { Ports.quiet with por := true }.por = true := rfl

/-- The source's pair, the tie, and a pair that is not listed. -/
theorem witness_ConfigurationTimeCount :
    State.reset.running = false ∧
    (∃ e ∈ Cfg.default.timingTable, e.clockFrequency = 16000000 ∧ e.baudRate = 250000) ∧
    (1 ≤ (2 * 16000000 + 250000) / (2 * 250000) ∧
      (2 * 16000000 + 250000) / (2 * 250000) < 2 ^ Cfg.default.cpbWidth ∧
      (2 * 16000000 + 250000) / (2 * 250000) < 2 ^ Cfg.default.tsWidth) ∧
    (∀ e ∈ Cfg.default.timingTable, e.clockFrequency ≠ 16000000 ∨ e.baudRate ≠ 115200) ∧
    (2 * 1 + 3) / (2 * 3) = 0 ∧ 2 ^ Cfg.default.cpbWidth ≤ (2 * 65536 + 1) / (2 * 1) ∧
    2 ^ Cfg.default.tsWidth ≤ (2 * 4294967296 + 1) / (2 * 1) := by decide +kernel

theorem witness_ConfigurationWordSetsTheFields :
    State.reset.running = false ∧ ((2 : BitVec 2).toNat ≠ 3 ∧ 1 ≤ (1 : BitVec 4).toNat ∧ (8 : BitVec 4).toNat ≤ 8) ∧
    (3 : BitVec 2).toNat = 3 ∧ (0 : BitVec 4).toNat = 0 ∧ 8 < (9 : BitVec 4).toNat := by decide

theorem witness_RunningConfigurationIsFixed :
    start.running = true ∧
    ∃ t, step { start with host := [.code (encode 32 (.fmtCfgw 2 1 1))] } = .next t := ⟨rfl, _, rfl⟩

theorem witness_InvalidConfigurationHasNoStep :
    (∀ e ∈ { Cfg.default with baudRate := 115200 }.timingTable,
      e.clockFrequency ≠ 16000000 ∨ e.baudRate ≠ { Cfg.default with baudRate := 115200 }.baudRate) ∧
    { Cfg.default with dataBits := 9 }.dataBits.toNat > 8 ∧
    { Cfg.default with cpb := 63 }.cpb ≠ (2 * 16000000 + 250000) / (2 * 250000) := by decide +kernel

theorem witness_EncodeGivesTheFrame :
    ((2 : BitVec 2).toNat ≠ 3 ∧ 1 ≤ (1 : BitVec 4).toNat ∧ (8 : BitVec 4).toNat ≤ 8) ∧
    ((3 : BitVec 2).toNat = 3 ∧ (0 : BitVec 4).toNat = 0 ∧ 8 < (9 : BitVec 4).toNat) := by decide

theorem witness_FrameLengthAndParityLaws : (0 : Nat) ≤ 8 ∧ (8 : Nat) ≤ 8 ∧ ParityMode.odd ≠ .none := by decide

theorem witness_ValuesOfOneWordHaveOneFrame :
    ∀ i, i < (7 : BitVec 4).toNat → (0xC8 : Byte).getLsbD i = (0x48 : Byte).getLsbD i := by decide +kernel

theorem witness_BlockingTxTakesOneFrameAndOneStep :
    { start with host := [.tx 0x48] }.Inv ∧ start.tx.seg = .idle ∧ start.inp = Ports.quiet :=
  ⟨inv_of_good (by decide +kernel), rfl, rfl⟩

theorem witness_InputPortLayouts : 2 ^ 32 - 1 < 2 ^ start.cfg.tsWidth := by decide +kernel

theorem witness_OutputLayouts :
    { start with out := ⟨none, some ⟨true, 0x48⟩⟩ }.out.rd = some ⟨true, 0x48⟩ ∧ start.out.rd = none ∧
    (faulty ⟨.timingGlitch, 64, 65, 2⟩).rx.diag.expected < 2 ^ start.cfg.tsWidth := by decide +kernel

/-- A word that is a frame of the instance, and one that is none. -/
theorem witness_FrameFormatsGoOnTheLine :
    start.cfg.valid = true ∧
    (∃ v, start.cfg.dataBits.toNat = (levelsOf (0b00010010 : BitVec 8)).length ∧
      frameOf start.cfg v = [false] ++ levelsOf (0b00010010 : BitVec 8) ++ [] ++ [true]) ∧
    (¬ ∃ v, start.cfg.dataBits.toNat = (levelsOf (1 : BitVec 1)).length ∧
      frameOf start.cfg v = [false] ++ levelsOf (1 : BitVec 1) ++ [] ++ [true]) :=
  ⟨by decide +kernel, ⟨0x48, by decide +kernel⟩, by rintro ⟨v, h, _⟩; revert h; decide⟩

theorem witness_ResetState : start.cfg.verify = true := rfl

theorem witness_StepKeepsTheInvariant : start.Inv ∧ ∃ t, step { start with host := [.tx 0x48] } = .next t :=
  ⟨inv_of_good start_good, _, rfl⟩

theorem witness_TheBlockNeverHalts : atEnd.Inv ∧ ∀ c, Line.code c ∉ atEnd.host :=
  ⟨inv_of_good atEnd_good, by intro c h; cases h⟩

/-- The cycle of the accept, inside the frame, and its last one. -/
theorem witness_TraceOfOneFrame :
    start.Inv ∧ start.tx.seg = .idle ∧ Ports.quiet.por = false ∧
    { Ports.quiet with txreq := 0x148 }.txreq = pack9 true 0x48 ∧
    (∀ q ∈ List.replicate 640 Ports.quiet, q.por = false) ∧
    (List.replicate 640 Ports.quiet).length = (frameOf start.cfg 0x48).length * start.cfg.cpb ∧
    ([] : List Ports).length < (frameOf start.cfg 0x48).length * start.cfg.cpb :=
  ⟨inv_of_good start_good, rfl, rfl, rfl, by intro q h; rw [List.eq_of_mem_replicate h]; rfl,
    by rw [List.length_replicate]; decide +kernel, by decide +kernel⟩

theorem witness_TransmitterIgnoresTheReceiver :
    start.cfg = (faulty ⟨.timingGlitch, 64, 65, 2⟩).cfg ∧ start.tx = (faulty ⟨.timingGlitch, 64, 65, 2⟩).tx ∧
    start.cyc = (faulty ⟨.timingGlitch, 64, 65, 2⟩).cyc ∧
    (∃ t, cycle { Ports.quiet with txreq := 0x148 } start = .next t) ∧
    (∃ t, cycle { Ports.quiet with txreq := 0x148, rxRead := true } (faulty ⟨.timingGlitch, 64, 65, 2⟩) = .next t) :=
  ⟨rfl, rfl, rfl, ⟨_, rfl⟩, ⟨_, rfl⟩⟩

theorem witness_RoundTrip :
    start.cfg.valid = true ∧ start.cfg.verify = true ∧ start.rx.state = .idle ∧
    start.queue.count < start.cfg.queueCapacity := by decide +kernel

/-- The first and the last event of the frame that are checked. -/
theorem witness_JitterIsDetected :
    start.cfg.valid = true ∧ start.cfg.verify = true ∧ start.rx.state = .idle ∧
    (1 ≤ 1 ∧ 1 < start.cfg.segments ∧ 65 < start.cfg.tsMod ∧ 65 ≠ (0 + 1 * start.cfg.cpb) % start.cfg.tsMod) ∧
    (1 ≤ 9 ∧ 9 < start.cfg.segments ∧ 575 < start.cfg.tsMod ∧ 575 ≠ (0 + 9 * start.cfg.cpb) % start.cfg.tsMod) := by
  decide +kernel

theorem witness_FlippedParityIsDetected :
    (idleOf (cfgOf 8 .lsb .even)).cfg.valid = true ∧ (idleOf (cfgOf 8 .lsb .even)).cfg.verify = true ∧
    (idleOf (cfgOf 8 .lsb .even)).rx.state = .idle ∧ (idleOf (cfgOf 8 .lsb .even)).cfg.parityMode ≠ .none := by
  decide +kernel

/-- With parity, the last data level; without, the first. -/
theorem witness_FlippedDataLevel :
    ((idleOf (cfgOf 8 .msb .odd)).cfg.valid = true ∧ (idleOf (cfgOf 8 .msb .odd)).rx.state = .idle ∧
      7 < (idleOf (cfgOf 8 .msb .odd)).cfg.dataBits.toNat ∧ (idleOf (cfgOf 8 .msb .odd)).cfg.parityMode ≠ .none) ∧
    (start.cfg.valid = true ∧ start.cfg.verify = true ∧ start.rx.state = .idle ∧ 0 < start.cfg.dataBits.toNat ∧
      start.cfg.parityMode = .none ∧ start.queue.count < start.cfg.queueCapacity) := by decide +kernel

theorem witness_SentWordReachesTheQueue :
    start.Inv ∧ start.cfg.verify = true ∧ start.tx.seg = .idle ∧ start.rx.state = .idle ∧
    start.queue.count < start.cfg.queueCapacity ∧ { Ports.quiet with txreq := 0x148 }.txreq = pack9 true 0x48 ∧
    (∀ q ∈ { Ports.quiet with txreq := 0x148 } :: List.replicate 640 Ports.quiet,
      q.por = false ∧ q.rxReset = false ∧ q.rxRead = false ∧ q.evt = none) ∧
    (List.replicate 640 Ports.quiet).length = start.cfg.segments * start.cfg.cpb :=
  ⟨inv_of_good start_good, rfl, rfl, rfl, by decide, rfl, by
    intro q h
    rcases List.mem_cons.1 h with rfl | h
    · decide
    · rw [List.eq_of_mem_replicate h]; decide,
    by rw [List.length_replicate]; decide +kernel⟩

theorem witness_ReceiverSeesEveryPinWrite :
    Ports.quiet.por = false ∧ Ports.quiet.rxRead = false ∧ Ports.quiet.rxReset = false ∧ Ports.quiet.evt = none := by
  decide

theorem witness_ClockAndPinWrites : start.Inv ∧ ∃ t, cycle Ports.quiet start = .next t ∧ t.tx.seg = .idle :=
  ⟨inv_of_good start_good, _, rfl, rfl⟩

theorem witness_PreemptionIsHeldOffDuringAFrame : start.Inv ∧ atEnd.Inv :=
  ⟨inv_of_good start_good, inv_of_good atEnd_good⟩

end Sys2Proof.Machine.Tests
end

section
/-! SUPPORT. The TX operation of a cycle as one function of the state and the request word (42 R120 to R134): the
operation that `txPhase` decodes and runs, what it leaves alone, and what it writes. -/

namespace Sys2Proof.Machine

/-- The state after the TX operation that the request word and the state select (R120). -/
def State.txStep (w : BitVec 9) (s : State) : State :=
  match s.txSel with
  | .idle => if valid9 w then (s.load (byte9 w)).emit false else s.noWrite
  | .hold => { s.noWrite with tx := { s.tx with cnt := s.tx.cnt - 1 } }
  | .data => s.shiftData.emit (shiftOut s.cfg.bitOrder s.tx.shift)
  | .parity => (s.toSeg .parity).emit s.tx.par
  | .stop => (s.toSeg .stop).emit true
  | .finish => { s.noWrite with tx := { s.tx with seg := .idle, excl := false } }

theorem execAll_append (is js : List Instr) (s : State) :
    execAll (is ++ js) s = andThen (execAll is s) (execAll js) := by
  induction is generalizing s with
  | nil => simp
  | cons i is ih => cases h : exec i s <;> simp [h, ih]

/-- While a frame is in flight the request word selects nothing, or the refused request, which is the identity
(R129). -/
theorem execAll_decodeRequest_of_ne_idle {x : TxSel} (hx : x ≠ .idle) (w : BitVec 9) (s : State) :
    execAll (decodeRequest x w).toList s = .next s := by
  cases hw : valid9 w <;> simp [decodeRequest, hx, hw, exec, execTxRefused]

/-- The TX phase always goes on, to `txStep`. -/
theorem txPhase_eq_txStep (p : Ports) (s : State) : txPhase p s = .next (s.txStep p.txreq) := by
  change execAll ((decodeRequest s.txSel p.txreq).toList ++ (decodeClock s.txSel p.txreq).toList) s = _
  cases hx : s.txSel with
  | idle =>
    cases hw : valid9 p.txreq <;>
      simp [State.txStep, decodeRequest, decodeClock, hx, hw, exec, execTx, execTxidle]
  | hold | data | parity | stop | finish =>
    rw [execAll_append, execAll_decodeRequest_of_ne_idle (by decide)]
    simp [State.txStep, decodeClock, hx, exec, execTxhold, execTxdata, execTxparity, execTxstop, execTxend]

/-- R33: a TX operation leaves all but TX's registers and the write-event port alone. -/
theorem State.txStep_frame (w : BitVec 9) (s : State) : TxFrame s (s.txStep w) := by
  unfold State.txStep
  split
  case h_1 => split <;> rfl
  all_goals rfl

/-- TX's operation reads the configuration, TX's registers and the clock only (R131). -/
theorem State.txStep_congr {s t : State} (w : BitVec 9) (ht : t.tx = s.tx) (hc : t.cfg = s.cfg)
    (hy : t.cyc = s.cyc) :
    (t.txStep w).tx = (s.txStep w).tx ∧ (t.txStep w).out.wr = (s.txStep w).out.wr := by
  simp only [State.txStep, State.txSel_congr ht hc]
  cases s.txSel with
  | idle => cases valid9 w <;> simp [ht, hc, hy]
  | hold | data | parity | stop | finish => simp [ht, hc, hy]

/-- R12, R122: a TX operation writes no event and keeps the pin, or its event carries the pin's new level and the
cycle's number. -/
theorem State.txStep_pin_write (w : BitVec 9) (s : State) :
    ((s.txStep w).out.wr = none ∧ (s.txStep w).tx.pin = s.tx.pin) ∨
      (s.txStep w).out.wr = some ⟨(s.txStep w).tx.pin, s.cyc⟩ := by
  cases hx : s.txSel with
  | idle =>
    cases hw : valid9 w
    · exact .inl (by simp [State.txStep, hx, hw])
    · exact .inr (by simp [State.txStep, hx, hw])
  | hold | finish => exact .inl (by simp [State.txStep, hx])
  | data | parity | stop => exact .inr (by simp [State.txStep, hx])

/-- R120, R127: a frame ends from its stop segment. -/
theorem State.seg_eq_stop_of_txSel_finish {s : State} (h : s.txSel = .finish) : s.tx.seg = .stop := by
  unfold State.txSel State.boundarySel at h
  cases hg : s.tx.seg with
  | stop => rfl
  | idle => simp [hg] at h
  | start | data | parity => simp only [hg] at h; split_ifs at h

/-- D2: an operation that leaves TX in `TxIdle` leaves the pin at 1, the level of the stop segment or of the idle
line it started from. -/
theorem State.txStep_idle_pin {s : State} (w : BitVec 9) (hok : TxOk s.cfg s.tx)
    (hidle : (s.txStep w).tx.seg = .idle) : (s.txStep w).tx.pin = true := by
  cases hx : s.txSel with
  | idle =>
    have hseg : s.tx.seg = .idle := s.txSel_idle_iff.1 hx
    cases hw : valid9 w
    · simpa [State.txStep, hx, hw] using hok.mark_level (.inl hseg)
    · simp [State.txStep, hx, hw] at hidle
  | hold =>
    have hseg : s.tx.seg = .idle := by simpa [State.txStep, hx] using hidle
    simp [s.txSel_idle_iff.2 hseg] at hx
  | finish =>
    have hseg : s.tx.seg = .stop := State.seg_eq_stop_of_txSel_finish hx
    simpa [State.txStep, hx] using hok.mark_level (.inr hseg)
  | data | parity | stop => simp [State.txStep, hx] at hidle

end Sys2Proof.Machine
end

section
/-! SUPPORT. What the receiver's phases of a cycle leave alone (43_reference_receiver, 10_state R33), and with it
TX's side of a whole cycle (60_exceptions R211). -/

namespace Sys2Proof.Machine

theorem CommitFrame.trans {s t u : State} (hst : CommitFrame s t) (htu : CommitFrame t u) : CommitFrame s u := by
  rw [CommitFrame] at hst htu
  rw [htu, hst]
  rfl

theorem State.stamp_frame (ts : Nat) (s : State) : CommitFrame s (s.stamp ts) := rfl

theorem State.foldBit_frame (l : Level) (s : State) : CommitFrame s (s.foldBit l) := rfl

theorem State.commit_frame {s t : State} (h : s.commit = .next t) : CommitFrame s t := by
  obtain ⟨u, hu, rfl⟩ := State.commit_eq_next.1 h
  rw [State.push_frame hu]
  rfl

theorem State.badStop_frame {s t : State} (h : s.badStop = .next t) : CommitFrame s t := by
  unfold State.badStop at h
  cases hp : s.cfg.stop0Policy <;> rw [hp] at h
  case commitAnyway => exact State.commit_frame h
  all_goals cases h; rfl

/-- A timed event leaves alone what the rule after its timing check does. -/
theorem State.timed_frame {ts : Nat} {pos : BitVec 4} {k : State → Result} {s t : State}
    (hk : ∀ u, k (s.stamp ts) = .next u → CommitFrame (s.stamp ts) u)
    (h : s.timed ts pos k = .next t) : CommitFrame s t := by
  rcases s.timed_cases ts pos k with ⟨_, e⟩ | ⟨_, e⟩
  · exact (s.stamp_frame ts).trans (hk t (e ▸ h))
  · rw [e] at h
    cases h
    rfl

theorem State.afterData_frame (s : State) : CommitFrame s s.afterData := by
  unfold State.afterData
  split <;> rfl

theorem State.checkParity_frame (l : Level) (s : State) : CommitFrame s (s.checkParity l) := by
  unfold State.checkParity
  split <;> rfl

theorem execEvInword_frame {l : Level} {ts : Nat} {s t : State} (h : execEvInword l ts s = .next t) :
    CommitFrame s t := by
  unfold execEvInword at h
  split at h
  · refine (s.foldBit_frame l).trans (State.timed_frame ?_ h)
    rintro u ⟨⟩
    exact State.afterData_frame _
  · cases h; rfl

theorem execEvParity_frame {l : Level} {ts : Nat} {s t : State} (h : execEvParity l ts s = .next t) :
    CommitFrame s t := by
  unfold execEvParity at h
  split at h
  · refine State.timed_frame ?_ h
    rintro u ⟨⟩
    exact State.checkParity_frame l _
  · cases h; rfl

theorem execEvStop1_frame {ts : Nat} {s t : State} (h : execEvStop1 ts s = .next t) : CommitFrame s t := by
  unfold execEvStop1 at h
  split at h
  · exact State.timed_frame (fun _ => State.commit_frame) h
  · cases h; rfl

theorem execEvStop0_frame {ts : Nat} {s t : State} (h : execEvStop0 ts s = .next t) : CommitFrame s t := by
  unfold execEvStop0 at h
  split at h
  · exact State.timed_frame (fun _ => State.badStop_frame) h
  · cases h; rfl

theorem execEvIdle0_frame {ts : Nat} {s t : State} (h : execEvIdle0 ts s = .next t) : CommitFrame s t := by
  unfold execEvIdle0 at h
  split at h <;> cases h <;> rfl

theorem execRxreset_frame {s t : State} (h : execRxreset s = .next t) : CommitFrame s t := by
  unfold execRxreset at h
  split at h <;> cases h <;> rfl

/-- R33: the EV operation an event selects writes RX's registers and the queue only. -/
theorem exec_decodeEvent_frame {W w : Nat} {r : RxState} {i : Instr} {s t : State}
    (hi : decodeEvent W r w = some i) (h : exec i s = .next t) : CommitFrame s t := by
  unfold decodeEvent at hi
  cases hv : evtValid W w with
  | false => simp [hv] at hi
  | true =>
    cases r <;> cases hl : evtLevel W w <;> simp [hv, hl] at hi <;> subst hi
    case idle.false => exact execEvIdle0_frame h
    case inWord.false | inWord.true => exact execEvInword_frame h
    case parityBit.false | parityBit.true => exact execEvParity_frame h
    case stopBit.false => exact execEvStop0_frame h
    case stopBit.true => exact execEvStop1_frame h
    case idle.true | fault.false | fault.true => cases h; rfl

/-- The receiver's phase writes RX's registers and the queue only. -/
theorem rxPhase_frame {p : Ports} {s t : State} (h : rxPhase p s = .next t) : CommitFrame s t := by
  unfold rxPhase at h
  split at h
  · rw [execAll_singleton] at h
    exact execRxreset_frame h
  · unfold evInstrs at h
    cases hi : decodeEvent s.select.tsWidth s.select.rx (s.eventWord p) with
    | none => rw [hi] at h; cases h; rfl
    | some i =>
      rw [hi, Option.toList_some, execAll_singleton] at h
      exact exec_decodeEvent_frame hi h

/-- The read phase writes the queue and the answer only (R160). -/
theorem readPhase_frame {p : Ports} {s t : State} (h : readPhase p s = .next t) :
    t = { s with queue := t.queue, out := { s.out with rd := t.out.rd } } := by
  unfold readPhase at h
  split at h
  · rw [execAll_singleton] at h
    change (if s.cfg.verify then s.pop else .next s) = .next t at h
    split at h
    · exact State.pop_frame h
    · cases h; rfl
  · cases h; rfl

/-- TX's side of a cycle: whatever the receiver does beside it, TX's registers and its event are those of `txStep`,
and the clock counts one (R11, R131). -/
theorem cycle_tx {p : Ports} {s t : State} (hp : p.por = false) (h : cycle p s = .next t) :
    t.cfg = s.cfg ∧ t.cyc = (s.cyc + 1) % s.cfg.tsMod ∧
      t.tx = (s.begin.txStep p.txreq).tx ∧ t.out.wr = (s.begin.txStep p.txreq).out.wr := by
  obtain ⟨s1, s2, s3, hread, htx, hrx, rfl⟩ := (cycle_eq_next hp).1 h
  have h1 := readPhase_frame hread
  have h3 : CommitFrame s2 s3 := rxPhase_frame hrx
  obtain rfl : s1.txStep p.txreq = s2 := by
    rw [txPhase_eq_txStep] at htx
    cases htx
    rfl
  have h2 : TxFrame s1 (s1.txStep p.txreq) := s1.txStep_frame p.txreq
  rw [TxFrame] at h2
  rw [CommitFrame] at h3
  obtain ⟨htx, hwr⟩ := State.txStep_congr (s := s.begin) (t := s1) p.txreq
    (by rw [h1]) (by rw [h1]) (by rw [h1])
  have hcfg : s3.cfg = s.cfg := by rw [h3, h2, h1]; rfl
  have hcyc : s3.cyc = s.cyc := by rw [h3, h2, h1]; rfl
  refine ⟨hcfg, by simp [hcfg, hcyc], ?_, ?_⟩
  · rw [← htx, h3]; rfl
  · rw [← hwr, h3]; rfl

end Sys2Proof.Machine
end

section
/-! The statements about the state (10_state). -/

namespace Sys2Proof.Machine

/-- Settles O59: TX's side of a cycle is `txStep`, whose pin write carries level and time, and which reaches
`TxIdle` only from the idle line or the stop segment. -/
theorem clockAndPinWrites : Obligations.ClockAndPinWrites := by
  intro p s t hp h
  obtain ⟨-, hcyc, htx, hwr⟩ := cycle_tx hp h
  rw [htx, hwr]
  refine ⟨hcyc, ?_, ?_, fun hinv => State.txStep_idle_pin (s := s.begin) p.txreq hinv.tx⟩
  · intro hnone
    rcases s.begin.txStep_pin_write p.txreq with ⟨_, hpin⟩ | hev
    · exact hpin
    · rw [hnone] at hev; cases hev
  · intro e he
    rcases s.begin.txStep_pin_write p.txreq with ⟨hnone, _⟩ | hev
    · rw [he] at hnone; cases hnone
    · rw [he] at hev; exact Option.some.inj hev

/-- Settles O47: `exec` of POR is `powerOn`, and of RXRESET, where a receiver exists, `clearRx`. -/
theorem resetState : Obligations.ResetState := by
  refine ⟨⟨rfl, rfl, rfl, rfl, rfl, rfl, rfl⟩, fun s => ?_, fun s hv => ?_⟩
  · exact ⟨s.powerOn, rfl, rfl, rfl, rfl, rfl, rfl, rfl, rfl, rfl⟩
  · have hexec : exec .rxreset s = .next s.clearRx := by simp [exec, execRxreset, hv]
    exact ⟨s.clearRx, hexec, rfl, rfl, rfl, rfl, rfl⟩

end Sys2Proof.Machine
end

section
/-! SUPPORT. The queue seen entry by entry and as a list (20_memory R41 to R43): what a write to `q_mem`, a push and
a pop make of them. -/

namespace Sys2Proof.Machine

theorem State.entry_write_self {s t : State} {a : Nat} {v : Byte}
    (hm : t.queue.mem = s.queue.mem.write a v) : t.entry a = v := by
  simp [State.entry, hm]

theorem State.entry_write_other {s t : State} {a b : Nat} {v : Byte}
    (hm : t.queue.mem = s.queue.mem.write a v) (he : t.epoch = s.epoch) (hb : b ≠ a) :
    t.entry b = s.entry b := by
  simp [State.entry, hm, he, Memory.read_write_other v s.queue.mem hb]

/-- Two entries of the ring less than its capacity apart stand at different indexes. -/
theorem ring_index_ne {h i n c : Nat} (hi : i < n) (hn : n < c) : (h + i) % c ≠ (h + n) % c := by
  intro heq
  have hin : i % c = n % c := Nat.ModEq.add_left_cancel' h heq
  rw [Nat.mod_eq_of_lt (hi.trans hn), Nat.mod_eq_of_lt hn] at hin
  omega

theorem State.push_of_lt (v : Byte) {s : State} (hlt : s.queue.count < s.cfg.queueCapacity) :
    s.push v = .next { s with queue := { s.queue with
      mem := s.queue.mem.write s.tail v, count := s.queue.count + 1 } } := by
  simp [State.push, hlt]

theorem State.pop_of_count_eq_zero {s : State} (h : s.queue.count = 0) :
    s.pop = .next { s with out := { s.out with rd := some ⟨false, 0⟩ } } := by
  simp [State.pop, h]

theorem State.pop_of_count_ne_zero {s : State} (h : s.queue.count ≠ 0)
    (hh : s.queue.head < s.cfg.queueCapacity) :
    s.pop = .next { s with
      queue := { s.queue with
        head := (s.queue.head + 1) % s.cfg.queueCapacity, count := s.queue.count - 1 }
      out := { s.out with rd := some ⟨true, s.entry s.queue.head⟩ } } := by
  simp [State.pop, h, hh]

theorem State.queued_of_count_eq_zero {s : State} (h : s.queue.count = 0) : s.queued = [] := by
  simp [State.queued, h]

/-- A push with room puts the byte behind the entries, which it keeps. -/
theorem State.queued_of_push {v : Byte} {s t : State} (hlt : s.queue.count < s.cfg.queueCapacity)
    (h : s.push v = .next t) : t.queued = s.queued ++ [v] := by
  rw [State.push_of_lt v hlt] at h
  cases h
  simp only [State.queued, List.range_succ, List.map_append, List.map_cons, List.map_nil]
  congr 1
  · refine List.map_congr_left fun i hi => State.entry_write_other rfl rfl ?_
    exact ring_index_ne (List.mem_range.1 hi) hlt
  · exact congrArg (fun b => [b]) (State.entry_write_self (s := s) rfl)

/-- R156: a commit with room puts the realigned byte behind the entries; the ports and `q_overflow` stay. -/
theorem State.commit_of_lt {s : State} (hlt : s.queue.count < s.cfg.queueCapacity) :
    ∃ t, s.commit = .next t ∧ t.out = s.out ∧
      t.queued = s.queued ++ [decoded s.cfg.bitOrder s.cfg.bits s.rx.acc] ∧
      t.queue.overflow = s.queue.overflow := by
  have hpush := State.push_of_lt (decoded s.cfg.bitOrder s.cfg.bits s.rx.acc) hlt
  have hqueued := State.queued_of_push hlt hpush
  exact ⟨_, State.commit_eq_next.2 ⟨_, hpush, rfl⟩, rfl, hqueued, rfl⟩

/-- A pop answers the first of the entries and leaves the others. -/
theorem State.queued_of_pop {s t : State} (hne : s.queue.count ≠ 0) (h : s.pop = .next t) :
    ∃ a, t.out.rd = some ⟨true, a⟩ ∧ s.queued = a :: t.queued := by
  rcases s.pop_cases with ⟨h0, _⟩ | ⟨_, hh, e⟩ | ⟨_, _, e⟩
  · exact absurd h0 hne
  · rw [e] at h
    cases h
    refine ⟨_, rfl, ?_⟩
    have hrange : List.range s.queue.count = 0 :: (List.range (s.queue.count - 1)).map Nat.succ := by
      rw [← List.range_succ_eq_map, Nat.sub_add_cancel (Nat.pos_of_ne_zero hne)]
    rw [State.queued, hrange, List.map_cons, List.map_map, Nat.add_zero, Nat.mod_eq_of_lt hh]
    refine congrArg _ (List.map_congr_left fun i _ => congrArg s.entry ?_)
    change (s.queue.head + (i + 1)) % _ = ((s.queue.head + 1) % _ + i) % _
    rw [Nat.mod_add_mod, Nat.add_assoc, Nat.add_comm 1 i]
  · rw [e] at h
    cases h

end Sys2Proof.Machine
end

section
/-! SUPPORT. The read and the commit as operations of a cycle (43_reference_receiver R156, R160; 60_exceptions R211):
what `exec` makes of RXREAD and of a good stop event, and a cycle that carries both. -/

namespace Sys2Proof.Machine

theorem exec_rxread {s : State} (hv : s.cfg.verify = true) : exec .rxread s = s.pop := by
  simp [exec, execRxread, hv]

theorem readPhase_eq_pop {p : Ports} {s : State} (hr : p.rxRead = true) (hv : s.cfg.verify = true) :
    readPhase p s = s.pop := by
  rw [readPhase, if_pos hr, execAll_singleton, exec_rxread hv]

/-- R156: a stop event of level 1 on time is the commit. -/
theorem exec_evStop1 {ts : Nat} {s : State} (hv : s.cfg.verify = true) (hst : s.rx.state = .stopBit)
    (hok : s.onTime ts = true) : exec (.evStop1 ts) s = (s.stamp ts).commit := by
  simp [exec, execEvStop1, State.rxIn, hv, hst, State.timed, hok]

/-- R162: the realignment, with the order as a condition. -/
theorem decoded_eq_ite (order : BitOrder) (n : Nat) (acc : Byte) :
    decoded order n acc = if order = .lsb then acc >>> (8 - n) else acc := by
  cases order <;> rfl

/-- R120: the boundary before the stop segment. -/
theorem State.txSel_eq_stop {s : State} (hcnt : s.tx.cnt = 0)
    (hseg : s.tx.seg = .parity ∨ (s.tx.seg = .data ∧ s.tx.rem = 0 ∧ s.cfg.parityMode = .none)) :
    s.txSel = .stop := by
  rcases hseg with hseg | ⟨hseg, hrem, hpar⟩
  · simp [State.txSel, hseg, hcnt]
  · simp [State.txSel, State.boundarySel, hseg, hcnt, hrem, hpar]

/-- A stop event with this timestamp comes in the cycle: the bench's (R212), or the stop segment's pin write that TX is
about to make on the wired event port (R29). -/
def State.StopEventDue (p : Ports) (ts : Nat) (s : State) : Prop :=
  p.evt = some (packEvt s.cfg.tsWidth true true ts) ∨ (p.evt = none ∧ ts = s.cyc ∧ s.txSel = .stop)

/-- R29, R212: after TX's operation the event port carries the bench's word, or the stop level that TX writes. -/
theorem State.eventWord_txStep {p : Ports} {ts : Nat} {s : State} (h : s.StopEventDue p ts) :
    (s.txStep p.txreq).eventWord p = packEvt s.cfg.tsWidth true true ts := by
  rcases h with hb | ⟨hn, rfl, hsel⟩
  · simp [State.eventWord, hb]
  · simp [State.eventWord, hn, State.txStep, hsel]

/-- The receiver's phase of a cycle whose event is a good stop event. -/
theorem rxPhase_eq_commit {p : Ports} {ts : Nat} {s : State}
    (hev : s.eventWord p = packEvt s.cfg.tsWidth true true ts) (hreset : p.rxReset = false)
    (hv : s.cfg.verify = true) (hst : s.rx.state = .stopBit) (hok : s.onTime ts = true)
    (hts : ts < s.cfg.tsMod) :
    rxPhase p s = (s.stamp ts).commit := by
  have hmod : ts % 2 ^ s.cfg.tsWidth = ts := Nat.mod_eq_of_lt hts
  have hi : evInstrs s.select (s.eventWord p) = [.evStop1 ts] := by
    simp [evInstrs, decodeEvent, State.select, hev, hst, hmod]
  simp only [rxPhase, hreset, hi, Bool.false_eq_true, if_false]
  rw [execAll_singleton, exec_evStop1 hv hst hok]

/-- R54: TX's operation and a good stop event, in a state whose queue has room: the byte goes behind the entries, and
the answer that already stands on RD stays. -/
theorem rxPhase_txStep_pushes {p : Ports} {ts : Nat} {s : State} (hreset : p.rxReset = false)
    (hv : s.cfg.verify = true) (hst : s.rx.state = .stopBit) (hok : s.onTime ts = true)
    (hts : ts < s.cfg.tsMod) (hev : s.StopEventDue p ts) (hroom : s.queue.count < s.cfg.queueCapacity) :
    ∃ t, rxPhase p (s.txStep p.txreq) = .next t ∧ t.out.rd = s.out.rd ∧
      t.queued = s.queued ++ [decoded s.cfg.bitOrder s.cfg.bits s.rx.acc] ∧
      t.queue.overflow = s.queue.overflow := by
  have hword := State.eventWord_txStep hev
  obtain ⟨x, w, hx⟩ : ∃ x w, s.txStep p.txreq = { s with tx := x, out := { s.out with wr := w } } :=
    ⟨_, _, s.txStep_frame p.txreq⟩
  rw [hx] at hword ⊢
  rw [rxPhase_eq_commit hword hreset hv hst hok hts]
  obtain ⟨t, hcommit, hout, hqueued, hover⟩ := State.commit_of_lt
    (s := ({ s with tx := x, out := { s.out with wr := w } } : State).stamp ts) hroom
  exact ⟨t, hcommit, by rw [hout]; rfl, hqueued, hover⟩

/-- R54, R211: in a cycle the good stop event is pushed behind what the read left, when that has room. -/
theorem cycle_pushes_after_read {p : Ports} {ts : Nat} {s r : State} (hpor : p.por = false)
    (hreset : p.rxReset = false) (hv : s.cfg.verify = true) (hst : s.rx.state = .stopBit)
    (hok : s.onTime ts = true) (hts : ts < s.cfg.tsMod) (hev : s.StopEventDue p ts)
    (hread : readPhase p s.begin = .next r) (hroom : r.queue.count < s.cfg.queueCapacity) :
    ∃ t, cycle p s = .next t ∧ t.out.rd = r.out.rd ∧
      t.queued = r.queued ++ [decoded s.cfg.bitOrder s.cfg.bits s.rx.acc] ∧
      t.queue.overflow = r.queue.overflow := by
  obtain ⟨q, a, rfl⟩ : ∃ q a, r = { s.begin with queue := q, out := { s.begin.out with rd := a } } :=
    ⟨_, _, readPhase_frame hread⟩
  obtain ⟨t, hrx, hrd, hqueued, hover⟩ := rxPhase_txStep_pushes
    (s := { s.begin with queue := q, out := { s.begin.out with rd := a } }) hreset hv hst hok hts hev hroom
  exact ⟨t.tick, (cycle_eq_next hpor).2 ⟨_, _, _, hread, txPhase_eq_txStep p _, hrx, rfl⟩, hrd, hqueued, hover⟩

end Sys2Proof.Machine
end

section
/-! The statements about the queue's memory (20_memory). -/

namespace Sys2Proof.Machine

/-- Settles O28: `exec` of RXREAD is the pop. -/
theorem readAnswersTheOldestEntry : Obligations.ReadAnswersTheOldestEntry := by
  intro s hv
  rw [exec_rxread hv]
  exact ⟨State.pop_of_count_eq_zero, State.pop_of_count_ne_zero⟩

/-- Settles O24: the commit is a push, which has room, or drops the new byte, or overwrites the oldest. -/
theorem pushToTheQueue : Obligations.PushToTheQueue := by
  intro ts s hv hst hok hh hc v tail
  have hexec : ∀ u, (s.stamp ts).push v = .next u → exec (.evStop1 ts) s = .next (u.toRx .idle) := by
    intro u hu
    rw [exec_evStop1 hv hst hok, State.commit_eq_next]
    exact ⟨u, (decoded_eq_ite s.cfg.bitOrder s.cfg.bits s.rx.acc) ▸ hu, rfl⟩
  rcases (s.stamp ts).push_cases v with
    ⟨hlt, hpush⟩ | ⟨hle, hpol, hpush⟩ | ⟨hle, hpol, _, hpush⟩ | ⟨_, _, hge, _⟩
  · refine ⟨_, hexec _ hpush, rfl, rfl, fun _ => ⟨rfl, rfl, rfl, ?_, fun a ha => ?_⟩, fun hfull => ?_⟩
    · exact State.entry_write_self (s := s) rfl
    · exact State.entry_write_other rfl rfl ha
    · exact absurd hfull hlt.ne
  · refine ⟨_, hexec _ hpush, rfl, rfl, fun hlt => absurd hlt (Nat.not_lt.2 hle), fun _ =>
      ⟨rfl, rfl, fun _ => ⟨rfl, fun _ => rfl⟩, fun h => ?_⟩⟩
    exact absurd (hpol.symm.trans h) (by decide)
  · refine ⟨_, hexec _ hpush, rfl, rfl, fun hlt => absurd hlt (Nat.not_lt.2 hle), fun _ =>
      ⟨rfl, rfl, fun h => ?_, fun _ => ⟨rfl, ?_, fun a ha => ?_⟩⟩⟩
    · exact absurd (hpol.symm.trans h) (by decide)
    · exact State.entry_write_self (s := s) rfl
    · exact State.entry_write_other rfl rfl ha
  · exact absurd hh (Nat.not_lt.2 hge)

/-- Settles O33: the read's pop leaves room, from a full queue because its capacity is at least 1, so the cycle's
stop event is pushed without overflow. -/
theorem readIsServedBeforeTheCommit : Obligations.ReadIsServedBeforeTheCommit := by
  intro p ts s hinv hv hst hpor hread hreset hevt hok hts v
  have hcap : 0 < s.cfg.queueCapacity := Nat.zero_lt_of_lt hinv.queue.head_lt
  have hev : s.StopEventDue p ts :=
    hevt.imp_right fun ⟨hnone, hcyc, hcnt, hseg⟩ => ⟨hnone, hcyc, State.txSel_eq_stop hcnt hseg⟩
  have hpop : readPhase p s.begin = s.begin.pop := readPhase_eq_pop hread hv
  refine ⟨fun hfull => ?_, fun hempty => ?_⟩
  · have hne : s.begin.queue.count ≠ 0 := by rw [State.begin_queue]; omega
    have hr := State.pop_of_count_ne_zero hne hinv.queue.head_lt
    obtain ⟨a, hrd, hlist⟩ := State.queued_of_pop hne hr
    obtain ⟨t, hcycle, htrd, hqueued, hover⟩ := cycle_pushes_after_read hpor hreset hv hst hok hts hev
      (hpop.trans hr) (show s.queue.count - 1 < _ by omega)
    exact ⟨t, a, _, hcycle, hlist, htrd.trans hrd, hqueued, hover⟩
  · have hr := State.pop_of_count_eq_zero (s := s.begin) hempty
    obtain ⟨t, hcycle, htrd, hqueued, hover⟩ := cycle_pushes_after_read hpor hreset hv hst hok hts hev
      (hpop.trans hr) (show s.queue.count < _ by omega)
    exact ⟨t, hcycle, htrd, hqueued.trans (congrArg (· ++ [v]) (State.queued_of_count_eq_zero hempty)), hover⟩

end Sys2Proof.Machine
end

section
/-! SUPPORT. The two configuration words (30_encoding R66, 44_sequence_helpers R90): which CFGW and which count of
cycles the decoder takes. -/

namespace Sys2Proof

/-- The bits of a CFGW that R66 makes a configuration error: the reserved bit, the parity code 3 and the counts of
data bits outside 1..8. -/
def IllegalCfgw (w : Nat) : Prop := w / 128 % 2 = 1 ∨ w / 32 % 4 = 3 ∨ w % 16 = 0 ∨ 8 < w % 16

theorem legalDataBits_eq_true {b : BitVec 4} : legalDataBits b = true ↔ 1 ≤ b.toNat ∧ b.toNat ≤ 8 := by
  simp [legalDataBits]

theorem legalParityCode_eq_true {p : BitVec 2} : legalParityCode p = true ↔ p.toNat ≠ 3 := by
  simp [legalParityCode, ← BitVec.toNat_inj]

theorem legalCfgwFields_ofNat {w : Nat} :
    (legalParityCode (BitVec.ofNat 2 (w / 32)) && legalDataBits (BitVec.ofNat 4 w)) = true ↔
      w / 32 % 4 ≠ 3 ∧ 1 ≤ w % 16 ∧ w % 16 ≤ 8 := by
  simp [legalParityCode_eq_true, legalDataBits_eq_true]

theorem decodeCfgw_of_illegal {w : Nat} (h : IllegalCfgw w) : decodeCfgw w = .error .reserved := by
  by_cases hres : w / 128 % 2 = 1
  · simp only [decodeCfgw, if_pos hres]
  · have hfields := mt (legalCfgwFields_ofNat (w := w)).1 (by unfold IllegalCfgw at h; omega)
    simp only [decodeCfgw, if_neg hres, if_neg hfields]

theorem decodeCfgw_of_legal {w : Nat} (h : ¬ IllegalCfgw w) :
    decodeCfgw w = .ok (BitVec.ofNat 2 (w / 32), BitVec.ofNat 1 (w / 16), BitVec.ofNat 4 w) := by
  unfold IllegalCfgw at h
  have hres : ¬ w / 128 % 2 = 1 := by omega
  have hfields := legalCfgwFields_ofNat.2 (show w / 32 % 4 ≠ 3 ∧ 1 ≤ w % 16 ∧ w % 16 ≤ 8 by omega)
  simp only [decodeCfgw, if_neg hres, if_pos hfields]

theorem decode_cfgw_of_illegal {sel : Select} {w : Nat} (hw : w < 256) (h : IllegalCfgw w) :
    decode sel ⟨.cfgw, w, []⟩ = .error .reserved := by
  simp [decode, decodeWord, Format.width, Nat.not_le.2 hw, decodeCfgw_of_illegal h]

theorem decode_cfgw_of_legal {sel : Select} {w : Nat} (hw : w < 256) (h : ¬ IllegalCfgw w) :
    decode sel ⟨.cfgw, w, []⟩ =
      .ok (.fmtCfgw (BitVec.ofNat 2 (w / 32)) (BitVec.ofNat 1 (w / 16)) (BitVec.ofNat 4 w)) := by
  simp [decode, decodeWord, Format.width, Nat.not_le.2 hw, decodeCfgw_of_legal h]

theorem decodeConfig_eq_ok {sel : Select} {w : Nat} {operands : List Nat} {i : Instr} :
    decodeConfig sel w operands = .ok i ↔
      ∃ f b, operands = [f, b] ∧ 0 < f ∧ 0 < b ∧ w = cyclesPerBit f b ∧
        legalCpb sel.cpbWidth sel.tsWidth w = true ∧ i = .cpb f b := by
  constructor
  · intro h
    unfold decodeConfig at h
    split at h
    next f b =>
      split_ifs at h with hpos hcount
      exact ⟨f, b, rfl, hpos.1, hpos.2, hcount.1, hcount.2, (Except.ok.inj h).symm⟩
    next => cases h
  · rintro ⟨f, b, rfl, hf, hb, hw, hlegal, rfl⟩
    simp only [decodeConfig, if_pos (And.intro hf hb), if_pos (And.intro hw hlegal)]

/-- R90, R91: a count of cycles that the decoder takes is at least 1 and fits CPB_WIDTH bits. -/
theorem count_bounds_of_decode_config {sel : Select} {w : Nat} {operands : List Nat} {i : Instr}
    (h : decode sel ⟨.config, w, operands⟩ = .ok i) : 1 ≤ w ∧ w < 2 ^ sel.cpbWidth := by
  have hconfig : decodeConfig sel w operands = .ok i := by
    simp only [decode] at h
    split_ifs at h
    exact h
  obtain ⟨f, b, -, -, -, -, hlegal, -⟩ := decodeConfig_eq_ok.1 hconfig
  simp only [legalCpb, Bool.and_eq_true, decide_eq_true_eq] at hlegal
  exact hlegal.1

end Sys2Proof
end

section
/-! The statements about the encodings (30_encoding). -/

namespace Sys2Proof

/-- Settles O4: a byte is an illegal CFGW or one whose fields the decoder reads; a count that the decoder takes is
within the bounds. -/
theorem configurationWordLayout : Obligations.ConfigurationWordLayout := by
  refine ⟨fun sel w hw => ⟨fun h => ?_, fun h => ?_⟩, by decide, fun sel w operands i hw h => ?_, ?_⟩
  · exact decode_cfgw_of_illegal hw (by unfold IllegalCfgw; omega)
  · refine ⟨_, _, _, decode_cfgw_of_legal hw (by unfold IllegalCfgw; omega), ?_⟩
    simp
  · obtain ⟨hone, hlt⟩ := count_bounds_of_decode_config h
    omega
  · exact decode_cfgw_of_legal (by decide) (by unfold IllegalCfgw; decide)

end Sys2Proof
end

section
/-! SUPPORT. Which configurations are valid (00_scope R4, 40_timing_controller R90, R91): what each check of
`Cfg.valid` asks of the configuration's fields, and that a state without a valid one has no step. -/

namespace Sys2Proof

theorem legalCpb_eq_true {cpbWidth tsWidth n : Nat} :
    legalCpb cpbWidth tsWidth n = true ↔ 1 ≤ n ∧ n < 2 ^ cpbWidth ∧ n < 2 ^ tsWidth := by
  simp [legalCpb, and_assoc]

theorem TimingEntry.sound_eq_true {e : TimingEntry} :
    e.sound = true ↔ 0 < e.clockFrequency ∧ 0 < e.baudRate ∧
      e.cyclesPerBit = Sys2Proof.cyclesPerBit e.clockFrequency e.baudRate := by
  simp [TimingEntry.sound, and_assoc]

theorem Cfg.supports_eq_true {c : Cfg} {f b : Nat} :
    c.supports f b = true ↔ ∃ e ∈ c.timingTable, e.clockFrequency = f ∧ e.baudRate = b := by
  simp [Cfg.supports]

theorem Cfg.calibrated_eq_true {c : Cfg} {f b : Nat} :
    c.calibrated f b = true ↔ 0 < f ∧ 0 < b ∧ c.supports f b = true ∧
      legalCpb c.cpbWidth c.tsWidth (cyclesPerBit f b) = true := by
  simp [Cfg.calibrated, and_assoc]

theorem Cfg.valid_eq_true {c : Cfg} :
    c.valid = true ↔ legalDataBits c.dataBits = true ∧ (∀ e ∈ c.timingTable, e.sound = true) ∧
      c.calibrated c.clockFrequency c.baudRate = true ∧
      c.cpb = cyclesPerBit c.clockFrequency c.baudRate ∧ 1 ≤ c.queueCapacity := by
  simp [Cfg.valid, and_assoc]

/-- The count of a valid configuration is itself a legal one, since it is R90's of the listed pair. -/
theorem Cfg.legalCpb_of_valid {c : Cfg} (h : c.valid = true) : legalCpb c.cpbWidth c.tsWidth c.cpb = true := by
  obtain ⟨-, -, hcal, hcpb, -⟩ := Cfg.valid_eq_true.1 h
  obtain ⟨-, -, -, hlegal⟩ := Cfg.calibrated_eq_true.1 hcal
  rwa [hcpb]

namespace Machine

theorem step_of_not_valid {s : State} (h : ¬ s.cfg.valid = true) : step s = .refused .configurationError :=
  if_neg h

end Machine
end Sys2Proof
end

section
/-! The statements about the timing controller (40_timing_controller). -/

namespace Sys2Proof.Machine

/-- Settles O38: each of the illegal conditions contradicts one of the checks of a valid configuration. -/
theorem invalidConfigurationHasNoStep : Obligations.InvalidConfigurationHasNoStep := by
  intro s hillegal
  refine step_of_not_valid fun hvalid => ?_
  obtain ⟨hbits, htable, hcal, hcpb, hcapacity⟩ := Cfg.valid_eq_true.1 hvalid
  obtain ⟨hbitsPos, hbitsLe⟩ := legalDataBits_eq_true.1 hbits
  obtain ⟨-, -, hpair, -⟩ := Cfg.calibrated_eq_true.1 hcal
  obtain ⟨hcpbPos, hcpbWidth, hcpbTs⟩ := legalCpb_eq_true.1 (Cfg.legalCpb_of_valid hvalid)
  obtain hunlisted | ⟨e, he, hcount⟩ | hother | hfields := hillegal
  · obtain ⟨e, he, hclock, hbaud⟩ := Cfg.supports_eq_true.1 hpair
    exact (hunlisted e he).elim (· hclock) (· hbaud)
  · obtain ⟨-, -, hsound⟩ := TimingEntry.sound_eq_true.1 (htable e he)
    exact hcount hsound
  · exact hother hcpb
  · omega

end Sys2Proof.Machine
end

section
/-! SUPPORT. The frame of a value (41_word_encoder R100) is read from the value's low `n` bits. -/

namespace Sys2Proof.Machine

theorem getLsbD_wordOf {n i : Nat} {v : Byte} :
    (wordOf n v).getLsbD i = (v.getLsbD i && decide (i < n)) := by
  rw [wordOf, BitVec.getLsbD_and, BitVec.getLsbD_ofNat, Nat.testBit_two_pow_sub_one]
  by_cases hi : i < 8
  · rw [decide_eq_true hi, Bool.true_and]
  · rw [BitVec.getLsbD_of_ge v i (Nat.not_lt.1 hi), Bool.false_and, Bool.false_and]

/-- D8: values with the same low `n` bits are one word. -/
theorem wordOf_congr {n : Nat} {v v' : Byte} (h : ∀ i, i < n → v.getLsbD i = v'.getLsbD i) :
    wordOf n v = wordOf n v' := by
  refine BitVec.eq_of_getLsbD_eq fun i _ => ?_
  rw [getLsbD_wordOf, getLsbD_wordOf]
  by_cases hi : i < n
  · rw [h i hi]
  · simp [hi]

/-- R102, R103: either order reads a bit below `n`. -/
theorem dataLevel_congr {n i : Nat} {v v' : Byte} (h : ∀ i, i < n → v.getLsbD i = v'.getLsbD i)
    (hi : i < n) (o : BitOrder) : dataLevel v n o i = dataLevel v' n o i := by
  cases o with
  | lsb => exact h i hi
  | msb => exact h (n - 1 - i) (by omega)

theorem parityLevel_congr {n : Nat} {v v' : Byte} (h : ∀ i, i < n → v.getLsbD i = v'.getLsbD i)
    (pm : ParityMode) : parityLevel v n pm = parityLevel v' n pm := by
  rw [parityLevel, parityLevel, wordOf_congr h]

/-- R106: values with the same low `n` bits have the same levels. -/
theorem frameLevels_congr {n : Nat} {v v' : Byte} (h : ∀ i, i < n → v.getLsbD i = v'.getLsbD i)
    (o : BitOrder) (pm : ParityMode) : frameLevels v n o pm = frameLevels v' n o pm := by
  have hdata : (List.range n).map (dataLevel v n o) = (List.range n).map (dataLevel v' n o) :=
    List.map_congr_left fun _ hi => dataLevel_congr h (List.mem_range.1 hi) o
  rw [frameLevels, frameLevels, hdata, parityLevel_congr h]

theorem exec_encode {v : Byte} {p : BitVec 2} {o : BitVec 1} {b : BitVec 4} {s : State} :
    exec (.encode v p o b) s = execEncode v p o b s := rfl

end Sys2Proof.Machine
end

section
/-! The statement about the word encoder (41_word_encoder). -/

namespace Sys2Proof.Machine

/-- Settles O41: ENCODE uses its value only through the levels of the frame. -/
theorem valuesOfOneWordHaveOneFrame : Obligations.ValuesOfOneWordHaveOneFrame := by
  intro v v' p o b s h
  rw [exec_encode, exec_encode, execEncode, execEncode, frameLevels_congr h]

end Sys2Proof.Machine
end

section
/-! SUPPORT. Which TX operation a state selects and what `exec` makes of it (42_transmission_driver R120 to R134), one
lemma for each selection and one for each operation. -/

namespace Sys2Proof.Machine

/-! ### The selection -/

theorem State.txSel_eq_hold {s : State} (hseg : s.tx.seg ≠ .idle) (hcnt : s.tx.cnt ≠ 0) : s.txSel = .hold := by
  cases hg : s.tx.seg with
  | idle => exact absurd hg hseg
  | start | data | parity | stop => simp [State.txSel, hg, hcnt]

/-- R120: the boundary after a start or data segment. -/
theorem State.txSel_eq_boundarySel {s : State} (hseg : s.tx.seg = .start ∨ s.tx.seg = .data)
    (hcnt : s.tx.cnt = 0) : s.txSel = s.boundarySel := by
  rcases hseg with hseg | hseg <;> simp [State.txSel, hseg, hcnt]

theorem State.boundarySel_eq_data {s : State} (hrem : s.tx.rem ≠ 0) : s.boundarySel = .data := if_pos hrem

theorem State.boundarySel_eq_parity {s : State} (hrem : s.tx.rem = 0) (hpar : s.cfg.parityMode ≠ .none) :
    s.boundarySel = .parity := by
  simp [State.boundarySel, hrem, hpar]

theorem State.boundarySel_eq_stop {s : State} (hrem : s.tx.rem = 0) (hpar : s.cfg.parityMode = .none) :
    s.boundarySel = .stop := by
  simp [State.boundarySel, hrem, hpar]

theorem State.txSel_eq_finish {s : State} (hseg : s.tx.seg = .stop) (hcnt : s.tx.cnt = 0) :
    s.txSel = .finish := by
  simp [State.txSel, hseg, hcnt]

/-! ### The operations -/

section
variable {s : State}

theorem exec_tx (h : s.txSel = .idle) (v : Byte) : exec (.tx v) s = .next ((s.load v).emit false) := if_pos h

theorem exec_txRefused (v : Byte) : exec (.txRefused v) s = .next s := rfl

theorem exec_txidle (h : s.txSel = .idle) (x : Byte) : exec (.txidle x) s = .next s.noWrite := if_pos h

theorem exec_txhold (h : s.txSel = .hold) (x : BitVec 9) :
    exec (.txhold x) s = .next { s.noWrite with tx := { s.tx with cnt := s.tx.cnt - 1 } } := if_pos h

theorem exec_txdata (h : s.txSel = .data) (x : BitVec 9) :
    exec (.txdata x) s = .next (s.shiftData.emit (shiftOut s.cfg.bitOrder s.tx.shift)) := if_pos h

theorem exec_txparity (h : s.txSel = .parity) (x : BitVec 9) :
    exec (.txparity x) s = .next ((s.toSeg .parity).emit s.tx.par) := if_pos h

theorem exec_txstop (h : s.txSel = .stop) (x : BitVec 9) :
    exec (.txstop x) s = .next ((s.toSeg .stop).emit true) := if_pos h

theorem exec_txend (h : s.txSel = .finish) (x : BitVec 9) :
    exec (.txend x) s = .next { s.noWrite with tx := { s.tx with seg := .idle, excl := false } } := if_pos h

end

/-! ### The TX phase is one operation -/

/-- In `TxIdle` the phase is the operation that the request word asks for. -/
theorem txPhase_eq_exec_request {p : Ports} {s : State} {i : Instr} (hsel : s.txSel = .idle)
    (hi : decodeRequest .idle p.txreq = some i) : txPhase p s = exec i s := by
  have hinstrs : txInstrs s.select p.txreq = [i] := by simp [txInstrs, State.select, hsel, hi, decodeClock]
  rw [txPhase, hinstrs, execAll_singleton]

/-- While a frame is in flight the phase is the operation that the clock selects. -/
theorem txPhase_eq_exec_clock {p : Ports} {s : State} {i : Instr}
    (hi : decodeClock s.txSel p.txreq = some i) : txPhase p s = exec i s := by
  have hsel : s.txSel ≠ .idle := by
    intro hidle
    rw [hidle] at hi
    cases hi
  change execAll ((decodeRequest s.txSel p.txreq).toList ++ (decodeClock s.txSel p.txreq).toList) s = _
  rw [execAll_append, execAll_decodeRequest_of_ne_idle hsel, andThen_next, hi, Option.toList_some,
    execAll_singleton]

/-! ### The request word in a cycle of a frame in flight -/

/-- R129: a frame in flight takes its next operation whatever the request word. -/
theorem State.txStep_eq_of_ne_idle {s : State} (h : s.tx.seg ≠ .idle) (w w' : BitVec 9) :
    s.txStep w = s.txStep w' := by
  have hsel : s.txSel ≠ .idle := mt s.txSel_idle_iff.1 h
  cases hx : s.txSel with
  | idle => exact absurd hx hsel
  | hold | data | parity | stop | finish => simp only [State.txStep, hx]

theorem andThen_congr {o : Result} {f g : State → Result} (h : ∀ t, o = .next t → f t = g t) :
    andThen o f = andThen o g := by
  cases o with
  | next t => exact h t rfl
  | fault r => rfl
  | refused r => rfl

/-- R129: the read phase keeps the frame in flight, TX's operation ignores the request word, and the receiver's phase
does not see it. -/
theorem cycle_eq_of_ne_idle (p : Ports) (w : BitVec 9) {s : State} (h : s.tx.seg ≠ .idle) :
    cycle { p with txreq := w } s = cycle p s := by
  by_cases hpor : p.por = true
  · rw [cycle_por hpor, cycle_por (p := { p with txreq := w }) hpor]
  · simp only [cycle, if_neg hpor]
    refine andThen_congr fun r (hread : readPhase p s.begin = .next r) => ?_
    have hseg : r.tx.seg ≠ .idle := by rw [readPhase_frame hread]; exact h
    rw [txPhase_eq_txStep, txPhase_eq_txStep, State.txStep_eq_of_ne_idle hseg w p.txreq]
    rfl

/-! ### The operands, with the bit order as a condition -/

theorem alignTx_eq_ite (order : BitOrder) (n : Nat) (w : Byte) :
    alignTx order n w = if order = .lsb then w else w <<< (8 - n) := by
  cases order <;> rfl

theorem shiftOut_eq_ite (order : BitOrder) (r : Byte) :
    shiftOut order r = if order = .lsb then r.getLsbD 0 else r.getLsbD 7 := by
  cases order <;> rfl

theorem shiftTx_eq_ite (order : BitOrder) (r : Byte) :
    shiftTx order r = if order = .lsb then r >>> 1 else r <<< 1 := by
  cases order <;> rfl

theorem xorReduce_eq_foldl (v : Byte) :
    xorReduce v = (List.range 8).foldl (fun e i => e ^^ v.getLsbD i) false := by
  simp [xorReduce, List.range_succ]

/-- R102, R124: the register of a word after `i` shifts emits data level `i`, least significant bit first. -/
theorem getLsbD_zero_wordOf_shiftRight {n i : Nat} (v : Byte) (hi : i < n) :
    (wordOf n v >>> i).getLsbD 0 = v.getLsbD i := by
  rw [BitVec.getLsbD_ushiftRight, getLsbD_wordOf, Nat.add_zero, decide_eq_true hi, Bool.and_true]

/-- R103, R124: the register of a word after `i` shifts emits data level `i`, most significant bit first. -/
theorem getLsbD_seven_wordOf_shiftLeft {n i : Nat} (v : Byte) (hn : n ≤ 8) (hi : i < n) :
    (wordOf n v <<< (8 - n) <<< i).getLsbD 7 = v.getLsbD (n - 1 - i) := by
  have hpos : 7 - i - (8 - n) = n - 1 - i := by omega
  have hlow : ¬ 7 < i := by omega
  have hfill : ¬ 7 - i < 8 - n := by omega
  have hbyte : 7 - i < 8 := by omega
  have hword : n - 1 - i < n := by omega
  rw [BitVec.getLsbD_shiftLeft, BitVec.getLsbD_shiftLeft, hpos, getLsbD_wordOf]
  simp [hlow, hfill, hbyte, hword]

end Sys2Proof.Machine
end

section
/-! The statements about the transmission driver (42_transmission_driver). -/

namespace Sys2Proof.Machine

/-- Settles O12: a refused request is the identity, and a frame in flight takes its operation without the request. -/
theorem requestsDuringAFrameHaveNoEffect : Obligations.RequestsDuringAFrameHaveNoEffect :=
  ⟨fun v _ => exec_txRefused v, fun p w _ hseg => cycle_eq_of_ne_idle p w hseg⟩

/-- Settles O14: the boundary selects TXDATA, and its level is the bit of the word that the shifts have brought to the
register's end. -/
theorem dataSegmentShiftsAndWrites : Obligations.DataSegmentShiftsAndWrites := by
  intro x s hseg hcnt hrem l
  have hsel : s.txSel = .data := (State.txSel_eq_boundarySel hseg hcnt).trans (State.boundarySel_eq_data hrem)
  refine ⟨?_, ?_⟩
  · rw [exec_txdata hsel, shiftOut_eq_ite, State.shiftData, shiftTx_eq_ite]
    rfl
  · intro v n i _ hn hi w hshift
    by_cases hord : s.cfg.bitOrder = .lsb
    · simp only [l, hord, if_true] at hshift ⊢
      rw [hshift]
      exact getLsbD_zero_wordOf_shiftRight v hi
    · simp only [l, hord, if_false] at hshift ⊢
      rw [hshift]
      exact getLsbD_seven_wordOf_shiftLeft v hn hi

/-- Settles O16: the stop segment's boundary selects TXEND, whatever the request, and the stop level stays. -/
theorem frameEndReleasesTheExclusiveSection : Obligations.FrameEndReleasesTheExclusiveSection := by
  intro x s hseg hcnt
  refine ⟨exec_txend (State.txSel_eq_finish hseg hcnt) x, fun hinv => hinv.tx.mark_level (.inr hseg),
    fun p t hpor hcycle => ?_⟩
  have hsel : s.begin.txSel = .finish := State.txSel_eq_finish hseg hcnt
  obtain ⟨-, -, htx, hwr⟩ := cycle_tx hpor hcycle
  rw [State.txReady, htx, hwr]
  simp [State.txStep, hsel]

/-- Settles O9: each case of the statement is one selection, and the phase is the operation it selects. -/
theorem oneTransmitterOperationAStep : Obligations.OneTransmitterOperationAStep := by
  intro p s
  refine ⟨fun hseg hvalid => ?_, fun hseg hvalid => ?_, fun hseg hcnt => ?_, fun hcnt hseg => ?_,
    fun hcnt hseg => ?_, fun hcnt hseg => ?_⟩
  · exact txPhase_eq_exec_request (s.txSel_idle_iff.2 hseg) (by rw [decodeRequest, valid9, hvalid]; rfl)
  · exact txPhase_eq_exec_request (s.txSel_idle_iff.2 hseg) (by rw [decodeRequest, valid9, hvalid]; rfl)
  · exact txPhase_eq_exec_clock (by rw [State.txSel_eq_hold hseg hcnt]; rfl)
  · have hsel : s.txSel = s.boundarySel := State.txSel_eq_boundarySel hseg hcnt
    refine ⟨fun hrem => ?_, fun hrem hpar => ?_, fun hrem hpar => ?_⟩
    · exact txPhase_eq_exec_clock (by rw [hsel, State.boundarySel_eq_data hrem]; rfl)
    · exact txPhase_eq_exec_clock (by rw [hsel, State.boundarySel_eq_parity hrem hpar]; rfl)
    · exact txPhase_eq_exec_clock (by rw [hsel, State.boundarySel_eq_stop hrem hpar]; rfl)
  · exact txPhase_eq_exec_clock (by rw [State.txSel_eq_stop hcnt (.inl hseg)]; rfl)
  · exact txPhase_eq_exec_clock (by rw [State.txSel_eq_finish hseg hcnt]; rfl)

/-- Settles O10: an accept is the load and the write of the start level. -/
theorem acceptLoadsTheFrameAndWritesStart : Obligations.AcceptLoadsTheFrameAndWritesStart := by
  intro v s hseg w
  rw [exec_tx (s.txSel_idle_iff.2 hseg), State.load, alignTx_eq_ite, parityLevel, xorReduce_eq_foldl]
  rfl

/-- Settles O13: the idle step only clears wr_valid, the hold step also counts down; the line at rest is the
invariant's. -/
theorem idleAndHoldSteps : Obligations.IdleAndHoldSteps := by
  refine ⟨fun x s hseg => ⟨?_, decide_eq_true hseg, fun hinv => ⟨hinv.tx.mark_level (.inl hseg), ?_⟩⟩,
    fun x s hseg hcnt => exec_txhold (State.txSel_eq_hold hseg hcnt) x⟩
  · exact exec_txidle (s.txSel_idle_iff.2 hseg) x
  · exact Bool.eq_false_iff.2 fun hexcl => hinv.tx.excl_iff.1 hexcl hseg

/-- Settles O15: the boundary after the data selects TXPARITY, or TXSTOP without parity; that after the parity segment
selects TXSTOP. -/
theorem parityAndStopSegmentsWrite : Obligations.ParityAndStopSegmentsWrite := by
  refine ⟨fun x s hseg hcnt hrem hpar => ?_, fun x s hboundary hcnt => ?_⟩
  · have hsel : s.txSel = .parity :=
      (State.txSel_eq_boundarySel (.inr hseg) hcnt).trans (State.boundarySel_eq_parity hrem hpar)
    exact exec_txparity hsel x
  · exact exec_txstop (State.txSel_eq_stop hcnt hboundary.symm) x

end Sys2Proof.Machine
end

section
/-! SUPPORT. What `exec` makes of an event in each receiver state, and of RXRESET (43_reference_receiver R151 to R159):
one lemma for each operation, and the rule's own wording of its operands. -/

namespace Sys2Proof.Machine

section
variable {s : State}

/-! ### The operands, with the configuration as a condition -/

/-- R153: the model reduces the stored timestamp first, which changes nothing on one that fits its width. -/
theorem State.elapsed_of_lt (h : s.rx.prevTs < 2 ^ s.cfg.tsWidth) (ts : Nat) :
    s.elapsed ts = (ts + 2 ^ s.cfg.tsWidth - s.rx.prevTs) % 2 ^ s.cfg.tsWidth := by
  rw [State.elapsed, Cfg.tsMod, Nat.mod_eq_of_lt h]

theorem State.stopPosition_eq (s : State) :
    s.stopPosition = s.cfg.dataBits + if s.cfg.parityMode = .none then 0 else 1 :=
  congrArg (s.cfg.dataBits + ·) (ite_not ..)

theorem foldRx_eq_ite (order : BitOrder) (acc : Byte) (l : Level) :
    foldRx order acc l = if order = .lsb then (acc >>> 1) ||| (if l then 0x80 else 0)
      else (acc <<< 1) ||| (if l then 1 else 0) := by
  cases order <;> cases l <;> rfl

theorem levelNat_eq_ite (l : Level) : levelNat l = if l then 1 else 0 := by
  cases l <;> rfl

/-- R155: the required level, with the fold that R5 gives the exclusive or. -/
theorem State.expectedParity_eq (s : State) :
    s.expectedParity = if s.cfg.parityMode = .even
      then (List.range 8).foldl (fun e i => e ^^ s.rx.acc.getLsbD i) false
      else !(List.range 8).foldl (fun e i => e ^^ s.rx.acc.getLsbD i) false := by
  rw [State.expectedParity, xorReduce_eq_foldl]

/-- R154: where a data event leads, as one move. -/
theorem State.afterData_eq (s : State) : s.afterData = s.toRx
    (if s.rx.rem = 0 then (if s.cfg.parityMode = .none then .stopBit else .parityBit) else s.rx.state) := by
  rw [State.afterData, ite_not]
  split <;> rfl

/-! ### The timing check -/

theorem State.onTime_iff {ts : Nat} : s.onTime ts = true ↔ s.elapsed ts = s.cfg.cpb := decide_eq_true_iff

theorem State.timed_of_onTime {ts e : Nat} (he : s.elapsed ts = e) (h : e = s.cfg.cpb) (pos : BitVec 4)
    (k : State → Result) : s.timed ts pos k = k (s.stamp ts) := if_pos (State.onTime_iff.2 (he.trans h))

/-- R201, R208: a mistimed event ends in Fault with the distance it had, whatever its rule would do on time. -/
theorem State.timed_of_mistimed {ts e : Nat} (he : s.elapsed ts = e) (h : e ≠ s.cfg.cpb) (pos : BitVec 4)
    (k : State → Result) :
    s.timed ts pos k = .next ((s.stamp ts).raiseFault ⟨.timingGlitch, s.cfg.cpb, e, pos⟩) := by
  subst he
  exact if_neg (mt State.onTime_iff.1 h)

/-! ### The operations -/

theorem State.rxIn_eq_true {r : RxState} : s.rxIn r = true ↔ s.cfg.verify = true ∧ s.rx.state = r := by
  simp [State.rxIn]

theorem exec_evIdle0 (hv : s.cfg.verify = true) (hst : s.rx.state = .idle) (ts : Nat) :
    exec (.evIdle0 ts) s = .next (s.startFrame ts) := if_pos (State.rxIn_eq_true.2 ⟨hv, hst⟩)

theorem exec_evIdle1 (ts : Nat) (s : State) : exec (.evIdle1 ts) s = .next s := rfl

theorem exec_evInword (hv : s.cfg.verify = true) (hst : s.rx.state = .inWord) (l : Level) (ts : Nat) :
    exec (.evInword l ts) s =
      (s.foldBit l).timed ts (s.cfg.dataBits - s.rx.rem) fun t => .next t.afterData :=
  if_pos (State.rxIn_eq_true.2 ⟨hv, hst⟩)

theorem exec_evParity (hv : s.cfg.verify = true) (hst : s.rx.state = .parityBit) (l : Level) (ts : Nat) :
    exec (.evParity l ts) s = s.timed ts s.cfg.dataBits fun t => .next (t.checkParity l) :=
  if_pos (State.rxIn_eq_true.2 ⟨hv, hst⟩)

theorem exec_evStop1_eq_timed (hv : s.cfg.verify = true) (hst : s.rx.state = .stopBit) (ts : Nat) :
    exec (.evStop1 ts) s = s.timed ts s.stopPosition State.commit := if_pos (State.rxIn_eq_true.2 ⟨hv, hst⟩)

theorem exec_evStop0_eq_timed (hv : s.cfg.verify = true) (hst : s.rx.state = .stopBit) (ts : Nat) :
    exec (.evStop0 ts) s = s.timed ts s.stopPosition State.badStop := if_pos (State.rxIn_eq_true.2 ⟨hv, hst⟩)

theorem exec_evFault (l : Level) (ts : Nat) (s : State) : exec (.evFault l ts) s = .next s := rfl

theorem exec_rxreset (hv : s.cfg.verify = true) : exec .rxreset s = .next s.clearRx := if_pos hv

/-! ### The policies of a level-0 stop event (R157, R203) -/

theorem State.badStop_of_dropSilently (h : s.cfg.stop0Policy = .dropSilently) :
    s.badStop = .next (s.toRx .idle) := by
  rw [State.badStop, h]

theorem State.badStop_of_commitAnyway (h : s.cfg.stop0Policy = .commitAnyway) : s.badStop = s.commit := by
  rw [State.badStop, h]

theorem State.badStop_of_framingFault (h : s.cfg.stop0Policy = .framingFault) :
    s.badStop = .next (s.raiseFault ⟨.framingError, 1, 0, s.stopPosition⟩) := by
  rw [State.badStop, h]

/-! ### The push of a commit -/

/-- R43: a push on a full queue sets `q_overflow` under either policy. -/
theorem State.overflow_of_push {v : Byte} {t : State} (hfull : s.cfg.queueCapacity ≤ s.queue.count)
    (h : s.push v = .next t) : t.queue.overflow = true := by
  rcases s.push_cases v with ⟨hlt, _⟩ | ⟨_, _, hpush⟩ | ⟨_, _, _, hpush⟩ | ⟨_, _, _, hpush⟩
  · exact absurd hlt (Nat.not_lt.2 hfull)
  · rw [hpush] at h; cases h; rfl
  · rw [hpush] at h; cases h; rfl
  · rw [hpush] at h; cases h

end

/-! ### Events in Fault, and the cycle of a reset -/

/-- R158: an event that reaches RX in Fault selects the row that does nothing. -/
theorem execAll_evInstrs_of_fault {s : State} (h : s.rx.state = .fault) (w : Nat) :
    execAll (evInstrs s.select w) s = .next s := by
  cases hv : evtValid s.cfg.tsWidth w <;> simp [evInstrs, decodeEvent, State.select, h, hv, exec_evFault]

/-- R159, R211: RXRESET takes the place of the cycle's event. -/
theorem rxPhase_of_rxReset {p : Ports} {s : State} (hr : p.rxReset = true) (hv : s.cfg.verify = true) :
    rxPhase p s = .next s.clearRx := by
  rw [rxPhase, if_pos hr, execAll_singleton, exec_rxreset hv]

theorem readPhase_of_not_rxRead {p : Ports} (hr : p.rxRead = false) (s : State) : readPhase p s = .next s := by
  rw [readPhase, hr]
  rfl

/-- R159, R211: a cycle with `rx_reset` is its read, its TX operation, and the cleared receiver. -/
theorem cycle_of_rxReset {p : Ports} {s t : State} (hpor : p.por = false) (hr : p.rxReset = true)
    (hv : s.cfg.verify = true) (h : cycle p s = .next t) :
    ∃ r, readPhase p s.begin = .next r ∧ t = (r.txStep p.txreq).clearRx.tick := by
  obtain ⟨r, x, y, hread, htx, hrx, rfl⟩ := (cycle_eq_next hpor).1 h
  obtain rfl : r.txStep p.txreq = x := Host.Outcome.next.inj ((txPhase_eq_txStep p r).symm.trans htx)
  have hcfg : (r.txStep p.txreq).cfg = s.cfg := by
    rw [r.txStep_frame p.txreq, readPhase_frame hread]
    rfl
  rw [rxPhase_of_rxReset hr (hcfg ▸ hv)] at hrx
  exact ⟨r, hread, congrArg State.tick (Host.Outcome.next.inj hrx).symm⟩

end Sys2Proof.Machine
end

section
/-! The statements about the reference receiver (43_reference_receiver). -/

namespace Sys2Proof.Machine

/-- Settles O19: a level-0 event is the start of a frame, a level-1 event the identity. -/
theorem eventsInIdle : Obligations.EventsInIdle :=
  ⟨fun ts _ hv hst => exec_evIdle0 hv hst ts, exec_evIdle1⟩

/-- Settles O20: the fold and the decrement come before the timing check, so both outcomes carry them. -/
theorem dataEvent : Obligations.DataEvent := by
  intro l ts s hv hst hprev elapsed acc
  have helapsed : (s.foldBit l).elapsed ts = elapsed := State.elapsed_of_lt (s := s.foldBit l) hprev ts
  have hacc : foldRx s.cfg.bitOrder s.rx.acc l = acc := foldRx_eq_ite _ _ l
  rw [exec_evInword hv hst]
  refine ⟨fun hok => ?_, fun hbad => ?_⟩
  · rw [State.timed_of_onTime helapsed hok, State.afterData_eq]
    simp [State.toRx, State.stamp, State.foldBit, hst, hacc]
  · rw [State.timed_of_mistimed helapsed hbad]
    simp [State.raiseFault, State.stamp, State.foldBit, hacc]

/-- Settles O22: the timing check comes first, then the event's level against the required one. -/
theorem parityEvent : Obligations.ParityEvent := by
  intro l ts s hv hst hprev elapsed e want
  have helapsed : s.elapsed ts = elapsed := State.elapsed_of_lt hprev ts
  have hwant : (s.stamp ts).expectedParity = want := (s.stamp ts).expectedParity_eq
  rw [exec_evParity hv hst]
  refine ⟨fun hok => ?_, fun hbad => ?_⟩
  · rw [State.timed_of_onTime helapsed hok, State.checkParity, hwant, levelNat_eq_ite, levelNat_eq_ite]
    by_cases hl : l = want
    · simp only [if_pos hl]
      rfl
    · simp only [if_neg hl]
      rfl
  · rw [State.timed_of_mistimed helapsed hbad]
    rfl

/-- Settles O23: on time the event is the commit, whose push has room or overflows; RX goes to Idle after either. -/
theorem stopEventCommits : Obligations.StopEventCommits := by
  intro ts s hv hst hprev hhead elapsed tail pos
  have helapsed : s.elapsed ts = elapsed := State.elapsed_of_lt hprev ts
  rw [exec_evStop1_eq_timed hv hst]
  refine ⟨fun hok => ?_, fun hbad => ?_⟩
  · obtain ⟨u, hpush⟩ := (s.stamp ts).push_goesOn (decoded s.cfg.bitOrder s.cfg.bits s.rx.acc) hhead
    have hcommit : (s.stamp ts).commit = .next (u.toRx .idle) := State.commit_eq_next.2 ⟨u, hpush, rfl⟩
    rw [State.timed_of_onTime helapsed hok]
    refine ⟨u.toRx .idle, hcommit, (s.stamp_frame ts).trans (State.commit_frame hcommit), ?_, fun hroom => ?_,
      fun hfull => ?_⟩
    · rw [State.push_frame hpush]
      rfl
    · rw [State.push_of_lt (s := s.stamp ts) _ hroom] at hpush
      cases hpush
      refine ⟨rfl, rfl, rfl, ?_, fun a ha => State.entry_write_other rfl rfl ha⟩
      exact (State.entry_write_self (s := s) rfl).trans (decoded_eq_ite _ _ _)
    · rw [State.toRx_queue]
      exact State.overflow_of_push (s := s.stamp ts) hfull hpush
  · rw [State.timed_of_mistimed helapsed hbad, s.stopPosition_eq]
    rfl

/-- Settles O25: the timing check comes before the policy; on time each policy is its own branch of `badStop`. -/
theorem stopEventOfLevelZero : Obligations.StopEventOfLevelZero := by
  intro ts s hv hst hprev elapsed pos
  have helapsed : s.elapsed ts = elapsed := State.elapsed_of_lt hprev ts
  rw [exec_evStop0_eq_timed hv hst, exec_evStop1_eq_timed hv hst]
  refine ⟨fun hok => ?_, fun hbad => ?_⟩
  · rw [State.timed_of_onTime helapsed hok, State.timed_of_onTime helapsed hok]
    refine ⟨fun hpol => ?_, fun hpol => ?_, fun hpol => ?_⟩
    · exact State.badStop_of_dropSilently hpol
    · exact State.badStop_of_commitAnyway hpol
    · rw [State.badStop_of_framingFault (s := s.stamp ts) hpol, State.stopPosition_eq]
      rfl
  · rw [State.timed_of_mistimed helapsed hbad, s.stopPosition_eq]
    rfl

/-- Settles O26: by induction on the events, each of which selects EV.fault. -/
theorem faultIgnoresEveryEvent : Obligations.FaultIgnoresEveryEvent := by
  refine ⟨exec_evFault, fun es s hst => ?_⟩
  induction es with
  | nil => rfl
  | cons e es ih => rw [deliver, execAll_evInstrs_of_fault hst, andThen_next, ih]

/-- Settles O27: RXRESET is `clearRx`; in a cycle it stands in the event's place, so that only a read can move the
queue. -/
theorem receiverResetClearsTheReceiver : Obligations.ReceiverResetClearsTheReceiver := by
  refine ⟨fun s => exec_rxreset, fun p s t hpor hreset hv hcycle => ?_⟩
  obtain ⟨r, hread, rfl⟩ := cycle_of_rxReset hpor hreset hv hcycle
  refine ⟨rfl, fun hnoread => ?_⟩
  rw [readPhase_of_not_rxRead hnoread] at hread
  cases hread
  change (s.begin.txStep p.txreq).queue = s.queue
  rw [s.begin.txStep_frame p.txreq]
  rfl

end Sys2Proof.Machine
end

section
/-! SUPPORT. A mistimed event as an entry into Fault (60_exceptions R201, R204), and what a cycle makes of a receiver in
Fault (R206). -/

namespace Sys2Proof.Machine

/-- R201, R204: the Fault entry of an event mistimed by `e` writes RX's registers only; before its timing check the
event's rule may have written them too (R154's fold). -/
theorem State.timed_glitch {s u : State} (hframe : RxFrame s u) {ts e : Nat} (he : u.elapsed ts = e)
    (hbad : e ≠ s.cfg.cpb) (pos : BitVec 4) (k : State → Result) :
    ∃ t, u.timed ts pos k = .next t ∧ RxFrame s t ∧ t.rx.state = .fault ∧
      t.rx.diag = ⟨.timingGlitch, s.cfg.cpb, e, pos⟩ := by
  have hcfg : u.cfg = s.cfg := by rw [hframe]
  rw [← hcfg] at hbad ⊢
  refine ⟨_, State.timed_of_mistimed he hbad pos k, ?_, rfl, rfl⟩
  rw [RxFrame, hframe]
  rfl

/-- R33: the read and the TX operation of a cycle leave RX's registers alone. -/
theorem State.txStep_rx_of_readPhase {p : Ports} {s r : State} (h : readPhase p s = .next r) (w : BitVec 9) :
    (r.txStep w).rx = s.rx := by
  rw [r.txStep_frame w, readPhase_frame h]

/-- R158, R206: without a reset a cycle keeps a receiver in Fault as it is. -/
theorem cycle_rx_of_fault {p : Ports} {s t : State} (hpor : p.por = false) (hreset : p.rxReset = false)
    (hst : s.rx.state = .fault) (h : cycle p s = .next t) : t.rx = s.rx := by
  obtain ⟨r, x, y, hread, htx, hrx, rfl⟩ := (cycle_eq_next hpor).1 h
  obtain rfl : r.txStep p.txreq = x := Host.Outcome.next.inj ((txPhase_eq_txStep p r).symm.trans htx)
  have hkeep : (r.txStep p.txreq).rx = s.rx := State.txStep_rx_of_readPhase hread p.txreq
  rw [rxPhase, hreset, if_neg Bool.false_ne_true, execAll_evInstrs_of_fault (hkeep ▸ hst)] at hrx
  cases hrx
  exact hkeep

end Sys2Proof.Machine
end

section
/-! The statements about the faults of the receiver (60_exceptions). -/

namespace Sys2Proof.Machine

/-- Settles O21: each form is a timed operation, whose timing check comes before its level or policy is looked at. -/
theorem mistimedEventIsATimingGlitch : Obligations.MistimedEventIsATimingGlitch := by
  intro ts s hv hprev elapsed glitch p hbad
  have helapsed : s.elapsed ts = elapsed := State.elapsed_of_lt hprev ts
  refine ⟨fun l hst => ?_, fun l hst => ?_, fun hst => ?_, fun hst => ?_⟩
  · rw [exec_evInword hv hst]
    exact State.timed_glitch (u := s.foldBit l) rfl helapsed hbad _ _
  · rw [exec_evParity hv hst]
    exact State.timed_glitch (u := s) rfl helapsed hbad _ _
  · rw [exec_evStop1_eq_timed hv hst, s.stopPosition_eq]
    exact State.timed_glitch (u := s) rfl helapsed hbad _ _
  · rw [exec_evStop0_eq_timed hv hst, s.stopPosition_eq]
    exact State.timed_glitch (u := s) rfl helapsed hbad _ _

/-- Settles O30: without a reset the cycle's event selects EV.fault; POR takes the place of the cycle and RXRESET that
of its event, and either clears RX. -/
theorem faultEndsOnlyByReset : Obligations.FaultEndsOnlyByReset := by
  intro p s t hst hv hcycle
  refine ⟨fun hpor hreset => cycle_rx_of_fault hpor hreset hst hcycle, fun hresets => ?_⟩
  cases hpor : p.por with
  | true =>
    rw [cycle_por hpor] at hcycle
    cases hcycle
    exact ⟨rfl, rfl⟩
  | false =>
    have hreset : p.rxReset = true := hresets.resolve_left (Bool.eq_false_iff.1 hpor)
    obtain ⟨r, -, rfl⟩ := cycle_of_rxReset hpor hreset hv hcycle
    exact ⟨rfl, rfl⟩

end Sys2Proof.Machine
end

section
/-! SUPPORT. The decoder on the words of each port and format (30_encoding R62 to R76): what it makes of an encoding,
and which words it takes for an instruction. -/

namespace Sys2Proof

/-- Every encoding fits its format's word. -/
theorem word_fits : ∀ i, Laws.WordFits.Statement i
  | .por => Laws.WordFits.por
  | .tx v => Laws.WordFits.tx v
  | .txRefused v => Laws.WordFits.txRefused v
  | .txidle x => Laws.WordFits.txidle x
  | .txhold x => Laws.WordFits.txhold x
  | .txdata x => Laws.WordFits.txdata x
  | .txparity x => Laws.WordFits.txparity x
  | .txstop x => Laws.WordFits.txstop x
  | .txend x => Laws.WordFits.txend x
  | .evIdle0 ts => Laws.WordFits.evIdle0 ts
  | .evIdle1 ts => Laws.WordFits.evIdle1 ts
  | .evInword l ts => Laws.WordFits.evInword l ts
  | .evParity l ts => Laws.WordFits.evParity l ts
  | .evStop1 ts => Laws.WordFits.evStop1 ts
  | .evStop0 ts => Laws.WordFits.evStop0 ts
  | .evFault l ts => Laws.WordFits.evFault l ts
  | .rxreset => Laws.WordFits.rxreset
  | .rxread => Laws.WordFits.rxread
  | .cpb f b => Laws.WordFits.cpb f b
  | .encode v p o b => Laws.WordFits.encode v p o b
  | .print x bs => Laws.WordFits.print x bs
  | .println x bs => Laws.WordFits.println x bs
  | .fmtCfgw p o b => Laws.WordFits.fmtCfgw p o b
  | .fmtTxreq e v => Laws.WordFits.fmtTxreq e v
  | .fmtEvt e l ts => Laws.WordFits.fmtEvt e l ts
  | .fmtRd e v => Laws.WordFits.fmtRd e v
  | .fmtDiag a e p k => Laws.WordFits.fmtDiag a e p k
  | .frame1n d => Laws.WordFits.frame1n d
  | .frame1p d p => Laws.WordFits.frame1p d p
  | .frame2n d => Laws.WordFits.frame2n d
  | .frame2p d p => Laws.WordFits.frame2p d p
  | .frame3n d => Laws.WordFits.frame3n d
  | .frame3p d p => Laws.WordFits.frame3p d p
  | .frame4n d => Laws.WordFits.frame4n d
  | .frame4p d p => Laws.WordFits.frame4p d p
  | .frame5n d => Laws.WordFits.frame5n d
  | .frame5p d p => Laws.WordFits.frame5p d p
  | .frame6n d => Laws.WordFits.frame6n d
  | .frame6p d p => Laws.WordFits.frame6p d p
  | .frame7n d => Laws.WordFits.frame7n d
  | .frame7p d p => Laws.WordFits.frame7p d p
  | .frame8n d => Laws.WordFits.frame8n d
  | .frame8p d p => Laws.WordFits.frame8p d p

/-! ### Formats and payloads -/

/-- The formats whose rows have operands beside the word (R75). -/
def Format.hasPayload : Format → Bool
  | .config | .print | .println => true
  | _ => false

/-- The decoder on a format without a payload. -/
theorem decode_of_no_payload {fmt : Format} (hfmt : fmt.hasPayload = false) (sel : Select) (w : Nat)
    (operands : List Nat) :
    decode sel ⟨fmt, w, operands⟩ =
      if 2 ^ fmt.width sel.cpbWidth sel.tsWidth ≤ w then .error .tooWide
      else if operands = [] then decodeWord sel fmt w else .error .payload := by
  cases fmt
  case config | print | println => cases hfmt
  all_goals rfl

theorem decode_eq_decodeWord {sel : Select} {fmt : Format} {w : Nat} (hfmt : fmt.hasPayload = false)
    (hfits : w < 2 ^ fmt.width sel.cpbWidth sel.tsWidth) : decode sel ⟨fmt, w, []⟩ = decodeWord sel fmt w := by
  rw [decode_of_no_payload hfmt, if_neg (Nat.not_le.2 hfits), if_pos rfl]

theorem lt_of_decode_ok {sel : Select} {c : Code} {i : Instr} (h : decode sel c = .ok i) :
    c.word < 2 ^ c.fmt.width sel.cpbWidth sel.tsWidth := by
  unfold decode at h
  split at h
  · cases h
  · next hwide => exact Nat.not_le.1 hwide

theorem decodeWord_of_decode_ok {sel : Select} {fmt : Format} {w : Nat} {operands : List Nat} {i : Instr}
    (hfmt : fmt.hasPayload = false) (h : decode sel ⟨fmt, w, operands⟩ = .ok i) :
    operands = [] ∧ decodeWord sel fmt w = .ok i := by
  rw [decode_of_no_payload hfmt] at h
  split_ifs at h with _ hnil
  exact ⟨hnil, h⟩

theorem payloadBytes_map_toNat (bs : List Byte) : payloadBytes (bs.map BitVec.toNat) = some bs := by
  have hall : ((bs.map BitVec.toNat).all fun n => decide (n < 256)) = true := by
    simpa using fun b _ => b.isLt
  rw [payloadBytes, if_pos hall, List.map_map]
  simp [Function.comp_def]

theorem map_toNat_of_payloadBytes {ns : List Nat} {bs : List Byte} (h : payloadBytes ns = some bs) :
    bs.map BitVec.toNat = ns := by
  unfold payloadBytes at h
  split_ifs at h with hall
  obtain rfl := Option.some.inj h
  have hlt : ∀ n ∈ ns, n < 256 := by simpa using hall
  rw [List.map_map]
  refine (List.map_congr_left fun n hn => ?_).trans ns.map_id
  simpa using Nat.mod_eq_of_lt (hlt n hn)

/-! ### What the packed words read back as -/

theorem packCfgw_fields (p : BitVec 2) (o : BitVec 1) (b : BitVec 4) :
    BitVec.ofNat 2 (packCfgw p o b / 32) = p ∧ BitVec.ofNat 1 (packCfgw p o b / 16) = o ∧
      BitVec.ofNat 4 (packCfgw p o b) = b := by
  have hp := p.isLt
  have ho := o.isLt
  have hb := b.isLt
  refine ⟨?_, ?_, ?_⟩ <;> apply BitVec.eq_of_toNat_eq <;> simp only [BitVec.toNat_ofNat, packCfgw] <;> omega

theorem packCfgw_ofNat {w : Nat} (h : w < 128) :
    packCfgw (BitVec.ofNat 2 (w / 32)) (BitVec.ofNat 1 (w / 16)) (BitVec.ofNat 4 w) = w := by
  simp only [packCfgw, BitVec.toNat_ofNat]
  omega

theorem legal_packCfgw {p : BitVec 2} {o : BitVec 1} {b : BitVec 4}
    (h : (legalParityCode p && legalDataBits b) = true) : ¬ IllegalCfgw (packCfgw p o b) := by
  rw [Bool.and_eq_true, legalParityCode_eq_true, legalDataBits_eq_true] at h
  have hp := p.isLt
  have ho := o.isLt
  have hb := b.isLt
  simp only [IllegalCfgw, packCfgw]
  omega

theorem decodeCfgw_packCfgw {p : BitVec 2} {o : BitVec 1} {b : BitVec 4}
    (h : (legalParityCode p && legalDataBits b) = true) : decodeCfgw (packCfgw p o b) = .ok (p, o, b) := by
  obtain ⟨hp, ho, hb⟩ := packCfgw_fields p o b
  rw [decodeCfgw_of_legal (legal_packCfgw h), hp, ho, hb]

theorem functionWord_mod (v : Byte) (p : BitVec 2) (o : BitVec 1) (b : BitVec 4) :
    (v.toNat * 256 + packCfgw p o b) % 256 = packCfgw p o b := by
  have h := packCfgw_lt p o b
  omega

theorem functionWord_div (v : Byte) (p : BitVec 2) (o : BitVec 1) (b : BitVec 4) :
    BitVec.ofNat 8 ((v.toNat * 256 + packCfgw p o b) / 256) = v := by
  have h := packCfgw_lt p o b
  apply BitVec.eq_of_toNat_eq
  simp only [BitVec.toNat_ofNat]
  omega

/-- A configuration word's byte that the decoder takes is that of its fields, which are legal. -/
theorem decodeCfgw_eq_ok {w : Nat} {p : BitVec 2} {o : BitVec 1} {b : BitVec 4} (hw : w < 256)
    (h : decodeCfgw w = .ok (p, o, b)) :
    packCfgw p o b = w ∧ (legalParityCode p && legalDataBits b) = true := by
  by_cases hill : IllegalCfgw w
  · rw [decodeCfgw_of_illegal hill] at h; cases h
  · rw [decodeCfgw_of_legal hill] at h
    cases h
    unfold IllegalCfgw at hill
    exact ⟨packCfgw_ofNat (by omega), legalCfgwFields_ofNat.2 (by omega)⟩

theorem levelNat_decide_mod_two (n : Nat) : levelNat (decide (n % 2 = 1)) = n % 2 := by
  rcases Nat.mod_two_eq_zero_or_one n with h | h <;> simp [levelNat, h]

theorem packEvt_fields {W w : Nat} (h : w < 2 ^ (W + 2)) :
    packEvt W (evtValid W w) (evtLevel W w) (evtTs W w) = w := by
  have hq : w / 2 ^ W < 4 := Nat.div_lt_of_lt_mul (by rwa [pow_add] at h)
  have htop : ∀ q < 4, q / 2 % 2 * 2 + q % 2 = q := by omega
  rw [packEvt, evtValid, evtLevel, evtTs, levelNat_decide_mod_two, levelNat_decide_mod_two, htop _ hq, Nat.mod_mod,
    Nat.div_add_mod']

theorem packDiag_div (W a e : Nat) (p : BitVec 4) (k : BitVec 2) : packDiag W a e p k / 64 = a * 2 ^ W + e := by
  have hp := p.isLt
  have hk := k.isLt
  simp only [packDiag]
  omega

theorem packDiag_fields {W e : Nat} (he : e < 2 ^ W) (a : Nat) (p : BitVec 4) (k : BitVec 2) :
    packDiag W a e p k / 64 / 2 ^ W = a ∧ packDiag W a e p k / 64 % 2 ^ W = e ∧
      BitVec.ofNat 4 (packDiag W a e p k / 4) = p ∧ BitVec.ofNat 2 (packDiag W a e p k) = k := by
  rw [packDiag_div]
  refine ⟨?_, ?_, ?_, ?_⟩
  · rw [Nat.add_comm, Nat.add_mul_div_right _ _ (Nat.two_pow_pos W), Nat.div_eq_of_lt he, Nat.zero_add]
  · rw [Nat.mul_add_mod', Nat.mod_eq_of_lt he]
  all_goals
    have hp := p.isLt
    have hk := k.isLt
    apply BitVec.eq_of_toNat_eq
    simp only [BitVec.toNat_ofNat, packDiag]
    omega

theorem packDiag_ofNat (W w : Nat) :
    packDiag W (w / 64 / 2 ^ W) (w / 64 % 2 ^ W) (BitVec.ofNat 4 (w / 4)) (BitVec.ofNat 2 w) = w := by
  simp only [packDiag, Nat.div_add_mod', BitVec.toNat_ofNat]
  omega

theorem packFrame_div {n : Nat} (d : BitVec n) : packFrame d / 2 = d.toNat := by
  simp only [packFrame]
  omega

theorem packFrameP_div {n : Nat} (d : BitVec n) (p : Level) :
    packFrameP d p / 4 = d.toNat ∧ decide (packFrameP d p / 2 % 2 = 1) = p := by
  cases p <;> simp only [packFrameP, levelNat] <;> simp <;> omega

theorem packFrame_ofNat {n w : Nat} (hlt : w < 2 ^ (n + 1)) (hodd : w % 2 = 1) :
    packFrame (BitVec.ofNat n (w / 2)) = w := by
  rw [pow_succ] at hlt
  rw [packFrame, BitVec.toNat_ofNat, Nat.mod_eq_of_lt (by omega)]
  omega

theorem packFrameP_ofNat {n w : Nat} (hlt : w < 2 ^ (n + 2)) (hodd : w % 2 = 1) :
    packFrameP (BitVec.ofNat n (w / 4)) (decide (w / 2 % 2 = 1)) = w := by
  rw [pow_add] at hlt
  rw [packFrameP, BitVec.toNat_ofNat, Nat.mod_eq_of_lt (by omega), levelNat_decide_mod_two]
  omega

/-! ### Rows of an event, and frames -/

/-- The row an event of this level and timestamp selects (R150). -/
def eventInstr (r : RxState) (l : Level) (ts : Nat) : Instr :=
  match r with
  | .idle => if l then .evIdle1 ts else .evIdle0 ts
  | .inWord => .evInword l ts
  | .parityBit => .evParity l ts
  | .stopBit => if l then .evStop1 ts else .evStop0 ts
  | .fault => .evFault l ts

theorem decodeEvent_eq_ite (W : Nat) (r : RxState) (w : Nat) :
    decodeEvent W r w =
      if evtValid W w then some (eventInstr r (evtLevel W w) (evtTs W w)) else none := by
  cases r <;> rfl

theorem decodeEvent_packEvt (W : Nat) (r : RxState) (l : Level) (ts : Nat) :
    decodeEvent W r (packEvt W true l ts) = some (eventInstr r l (ts % 2 ^ W)) := by
  simp [decodeEvent_eq_ite]

/-- The code of an event's row (R68). -/
theorem encode_eventInstr (W : Nat) (r : RxState) (l : Level) (ts : Nat) :
    encode W (eventInstr r l ts) = ⟨.event, packEvt W true l ts, []⟩ := by
  cases r <;> cases l <;> rfl

theorem wellFormed_eventInstr (cpbWidth W : Nat) (r : RxState) (l : Level) (ts : Nat) :
    (eventInstr r l ts).wellFormed cpbWidth W = decide (ts < 2 ^ W) := by
  cases r <;> cases l <;> rfl

theorem selectedBy_eventInstr (sel : Select) (l : Level) (ts : Nat) :
    (eventInstr sel.rx l ts).selectedBy sel = true := by
  cases h : sel.rx <;> cases l <;> simp [eventInstr, Instr.selectedBy, h]

theorem decodeFrame_packFrame {n : Nat} (d : BitVec n) :
    decodeFrame n false (packFrame d) = frameInstr n false (packFrame d) := by
  have hstart : packFrame d / 2 ^ (n + 1) = 0 := Nat.div_eq_of_lt (packFrame_lt d)
  have hstop : ¬ packFrame d % 2 = 0 := by simp only [packFrame]; omega
  simp [decodeFrame, hstart, hstop]

theorem decodeFrame_packFrameP {n : Nat} (d : BitVec n) (p : Level) :
    decodeFrame n true (packFrameP d p) = frameInstr n true (packFrameP d p) := by
  have hstart : packFrameP d p / 2 ^ (n + 1 + 1) = 0 := Nat.div_eq_of_lt (packFrameP_lt d p)
  have hstop : ¬ packFrameP d p % 2 = 0 := by simp only [packFrameP]; omega
  simp [decodeFrame, hstart, hstop]

/-! ### The decoder on an encoding -/

/-- The decoder reads an encoding by its word alone, where the format has no payload. -/
theorem decode_encode_eq_decodeWord {sel : Select} {i : Instr}
    (hwf : i.wellFormed sel.cpbWidth sel.tsWidth = true) {fmt : Format} {w : Nat}
    (hc : encode sel.tsWidth i = ⟨fmt, w, []⟩) (hfmt : fmt.hasPayload = false) :
    decode sel (encode sel.tsWidth i) = decodeWord sel fmt w := by
  have hfits := word_fits i _ _ hwf
  rw [hc] at hfits ⊢
  exact decode_eq_decodeWord hfmt hfits

theorem decodeWord_frame {sel : Select} {n : Nat} (d : BitVec n) {i : Instr}
    (h : frameInstr n false (packFrame d) = .ok i) : decodeWord sel (.frame n false) (packFrame d) = .ok i :=
  (decodeFrame_packFrame d).trans h

theorem decodeWord_frameP {sel : Select} {n : Nat} (d : BitVec n) (p : Level) {i : Instr}
    (h : frameInstr n true (packFrameP d p) = .ok i) : decodeWord sel (.frame n true) (packFrameP d p) = .ok i :=
  (decodeFrame_packFrameP d p).trans h

/-! ### The codes that the decoder takes -/

/-- The code is this instruction's own, in a state that selects it. -/
def Select.Reads (sel : Select) (c : Code) (i : Instr) : Prop :=
  encode sel.tsWidth i = c ∧ i.wellFormed sel.cpbWidth sel.tsWidth = true ∧ i.selectedBy sel = true

theorem decodeStrobe_eq_ok {i j : Instr} {w : Nat} : decodeStrobe i w = .ok j ↔ w = 1 ∧ j = i := by
  unfold decodeStrobe
  split_ifs with h <;> simp [h, eq_comm]

theorem reads_of_decodeRequest {sel : Select} {w : BitVec 9} {i : Instr}
    (h : decodeRequest sel.tx w = some i) : sel.Reads ⟨.request, w.toNat, []⟩ i := by
  have hw := pack9_fields w
  unfold decodeRequest at h
  split_ifs at h with hv hsel hsel <;> cases h <;>
    simp_all [Select.Reads, encode, Instr.wellFormed, Instr.selectedBy]

theorem reads_of_decodeClock {sel : Select} {w : BitVec 9} {i : Instr}
    (h : decodeClock sel.tx w = some i) : sel.Reads ⟨.clock, w.toNat, []⟩ i := by
  cases hsel : sel.tx <;> rw [hsel] at h <;> cases h <;>
    simp [Select.Reads, encode, Instr.wellFormed, Instr.selectedBy, hsel]

theorem reads_of_decodeEvent {sel : Select} {w : Nat} {i : Instr} (hw : w < 2 ^ (sel.tsWidth + 2))
    (h : decodeEvent sel.tsWidth sel.rx w = some i) : sel.Reads ⟨.event, w, []⟩ i := by
  rw [decodeEvent_eq_ite] at h
  split_ifs at h with hv
  cases h
  have hpack := packEvt_fields hw
  rw [hv] at hpack
  refine ⟨by rw [encode_eventInstr, hpack], ?_, selectedBy_eventInstr _ _ _⟩
  rw [wellFormed_eventInstr]
  exact decide_eq_true (Nat.mod_lt _ (Nat.two_pow_pos _))

theorem lt_of_top_bit_zero {m w : Nat} (h : w < 2 ^ (m + 1)) (hbit : ¬ w / 2 ^ m % 2 = 1) : w < 2 ^ m := by
  have hq : w / 2 ^ m < 2 := Nat.div_lt_of_lt_mul (by rwa [pow_succ] at h)
  obtain hzero | hone := Nat.le_one_iff_eq_zero_or_eq_one.1 (Nat.lt_succ_iff.1 hq)
  · exact (Nat.div_eq_zero_iff_lt (Nat.two_pow_pos m)).1 hzero
  · exact absurd (by rw [hone]) hbit

theorem reads_of_frameInstr {sel : Select} {n w : Nat} {parity : Bool} {i : Instr}
    (hn : parity = false → packFrame (BitVec.ofNat n (w / 2)) = w)
    (hp : parity = true → packFrameP (BitVec.ofNat n (w / 4)) (decide (w / 2 % 2 = 1)) = w)
    (h : frameInstr n parity w = .ok i) : sel.Reads ⟨.frame n parity, w, []⟩ i := by
  unfold frameInstr at h
  split at h <;> cases h <;> simp [Select.Reads, encode, Instr.wellFormed, Instr.selectedBy, hn, hp]

theorem decodeFrame_eq_ok {n w : Nat} {parity : Bool} {i : Instr} :
    decodeFrame n parity w = .ok i ↔
      ¬ w / 2 ^ (n + 1 + if parity then 1 else 0) % 2 = 1 ∧ w % 2 = 1 ∧ frameInstr n parity w = .ok i := by
  unfold decodeFrame
  generalize 2 ^ (n + 1 + if parity then 1 else 0) = m
  by_cases hbits : w / m % 2 = 1 ∨ w % 2 = 0
  · rw [if_pos hbits]
    exact iff_of_false nofun (by omega)
  · rw [if_neg hbits]
    obtain ⟨hstart, hstop⟩ := not_or.1 hbits
    exact ⟨fun h => ⟨hstart, by omega, h⟩, fun h => h.2.2⟩

/-- R62: a word with the start bit 0 and the stop bit 1 is its frame's. -/
theorem reads_of_decodeFrame {sel : Select} {n w : Nat} {parity : Bool} {i : Instr}
    (hw : w < 2 ^ Format.width sel.cpbWidth sel.tsWidth (.frame n parity))
    (h : decodeFrame n parity w = .ok i) : sel.Reads ⟨.frame n parity, w, []⟩ i := by
  obtain ⟨hstart, hstop, hi⟩ := decodeFrame_eq_ok.1 h
  refine reads_of_frameInstr ?_ ?_ hi
  · rintro rfl
    exact packFrame_ofNat (lt_of_top_bit_zero hw hstart) hstop
  · rintro rfl
    exact packFrameP_ofNat (lt_of_top_bit_zero hw hstart) hstop

theorem reads_of_decodeWord {sel : Select} {fmt : Format} {w : Nat} {i : Instr}
    (hw : w < 2 ^ fmt.width sel.cpbWidth sel.tsWidth) (h : decodeWord sel fmt w = .ok i) :
    sel.Reads ⟨fmt, w, []⟩ i := by
  have hnine : ∀ {u}, u < 2 ^ 9 → (BitVec.ofNat 9 u).toNat = u := fun hu => Nat.mod_eq_of_lt hu
  cases fmt with
  | reset | resetStrobe | readStrobe =>
    obtain ⟨rfl, rfl⟩ := decodeStrobe_eq_ok.1 h
    exact ⟨rfl, rfl, rfl⟩
  | request =>
    cases hi : decodeRequest sel.tx (BitVec.ofNat 9 w) <;> simp [decodeWord, hi] at h
    have hreads := reads_of_decodeRequest hi
    rwa [h, hnine hw] at hreads
  | clock =>
    cases hi : decodeClock sel.tx (BitVec.ofNat 9 w) <;> simp [decodeWord, hi] at h
    have hreads := reads_of_decodeClock hi
    rwa [h, hnine hw] at hreads
  | event =>
    cases hi : decodeEvent sel.tsWidth sel.rx w <;> simp [decodeWord, hi] at h
    exact h ▸ reads_of_decodeEvent hw hi
  | function =>
    cases hi : decodeCfgw (w % 256) with
    | error e => simp [decodeWord, hi] at h
    | ok fields =>
      obtain ⟨p, o, b⟩ := fields
      simp only [decodeWord, hi, Except.ok.injEq] at h
      obtain ⟨hpack, hlegal⟩ := decodeCfgw_eq_ok (Nat.mod_lt _ (by decide)) hi
      subst h
      have hbyte : w / 256 < 256 := Nat.div_lt_of_lt_mul hw
      refine ⟨congrArg (Code.mk .function · []) ?_, hlegal, rfl⟩
      rw [hpack, BitVec.toNat_ofNat, Nat.mod_eq_of_lt hbyte, Nat.div_add_mod']
  | cfgw =>
    cases hi : decodeCfgw w with
    | error e => simp [decodeWord, hi] at h
    | ok fields =>
      obtain ⟨p, o, b⟩ := fields
      simp only [decodeWord, hi, Except.ok.injEq] at h
      obtain ⟨hpack, hlegal⟩ := decodeCfgw_eq_ok hw hi
      subst h
      exact ⟨congrArg (Code.mk .cfgw · []) hpack, hlegal, rfl⟩
  | txreq | rd =>
    cases h
    exact ⟨by rw [encode, pack9_fields, hnine hw], rfl, rfl⟩
  | evt =>
    cases h
    exact ⟨congrArg (Code.mk .evt · []) (packEvt_fields hw), decide_eq_true (Nat.mod_lt _ (Nat.two_pow_pos _)), rfl⟩
  | diag =>
    cases h
    have hactual : w / 64 / 2 ^ sel.tsWidth < 2 ^ sel.tsWidth := by
      rw [Nat.div_div_eq_div_mul]
      refine Nat.div_lt_of_lt_mul (hw.trans_eq ?_)
      rw [Format.width, pow_add, Nat.mul_comm 2, pow_mul, sq, Nat.mul_assoc]
      norm_num
    have hexpected := Nat.mod_lt (w / 64) (Nat.two_pow_pos sel.tsWidth)
    refine ⟨congrArg (Code.mk .diag · []) (packDiag_ofNat _ _), ?_, rfl⟩
    simp [Instr.wellFormed, hactual, hexpected]
  | frame n parity => exact reads_of_decodeFrame hw h
  | config | print | println => cases h

/-- What the decoder takes is read as the instruction whose code it is. -/
theorem reads_of_decode {sel : Select} {c : Code} {i : Instr} (h : decode sel c = .ok i) : sel.Reads c i := by
  have hw := lt_of_decode_ok h
  obtain ⟨fmt, w, operands⟩ := c
  cases hpay : fmt.hasPayload with
  | false =>
    obtain ⟨rfl, hword⟩ := decodeWord_of_decode_ok hpay h
    exact reads_of_decodeWord hw hword
  | true =>
    replace h := (if_neg (Nat.not_le.2 hw)).symm.trans h
    cases fmt
    case config =>
      obtain ⟨f, b, rfl, hf, hb, rfl, hcount, rfl⟩ := decodeConfig_eq_ok.1 h
      exact ⟨rfl, by simp [Instr.wellFormed, hf, hb, hcount], rfl⟩
    case print | println =>
      cases hbs : payloadBytes operands <;> simp [hbs] at h
      subst h
      have hword : w < 512 := hw
      exact ⟨by simp [encode, map_toNat_of_payloadBytes hbs, hword], rfl, rfl⟩
    all_goals cases hpay

end Sys2Proof
end

section
/-! The statements about the encodings (30_encoding). -/

namespace Sys2Proof

/-- Settles O2: the word fits its format, and its fields read back as the operands. -/
theorem decodeOfEncode : Obligations.DecodeOfEncode := by
  intro sel i hwf hsel
  cases i with
  | por | rxreset | rxread => exact decode_encode_eq_decodeWord hwf rfl rfl
  | tx v | txRefused v | txidle v =>
    rw [decode_encode_eq_decodeWord hwf rfl rfl]
    simp [decodeWord, decodeRequest, of_decide_eq_true hsel]
  | txhold x | txdata x | txparity x | txstop x | txend x =>
    rw [decode_encode_eq_decodeWord hwf rfl rfl]
    simp [decodeWord, decodeClock, of_decide_eq_true hsel]
  | evIdle0 ts | evIdle1 ts | evInword l ts | evParity l ts | evStop1 ts | evStop0 ts | evFault l ts =>
    rw [decode_encode_eq_decodeWord hwf rfl rfl]
    simp [decodeWord, decodeEvent_packEvt, eventInstr, of_decide_eq_true hsel,
      Nat.mod_eq_of_lt (of_decide_eq_true hwf)]
  | cpb f b =>
    have hfits := word_fits (.cpb f b) _ _ hwf
    simp only [Instr.wellFormed, Bool.and_eq_true, decide_eq_true_eq] at hwf
    obtain ⟨⟨hf, hb⟩, hcount⟩ := hwf
    exact (if_neg (Nat.not_le.2 hfits)).trans (decodeConfig_eq_ok.2 ⟨f, b, rfl, hf, hb, rfl, hcount, rfl⟩)
  | encode v p o b =>
    rw [decode_encode_eq_decodeWord hwf rfl rfl]
    simp only [decodeWord, functionWord_mod, functionWord_div, decodeCfgw_packCfgw hwf]
  | print x bs | println x bs =>
    refine (if_neg (Nat.not_le.2 (word_fits _ _ _ hwf))).trans ?_
    simp [encode, payloadBytes_map_toNat]
  | fmtCfgw p o b =>
    rw [decode_encode_eq_decodeWord hwf rfl rfl]
    simp only [decodeWord, decodeCfgw_packCfgw hwf]
  | fmtTxreq e v | fmtRd e v =>
    rw [decode_encode_eq_decodeWord hwf rfl rfl]
    simp [decodeWord]
  | fmtEvt e l ts =>
    rw [decode_encode_eq_decodeWord hwf rfl rfl]
    simp [decodeWord, Nat.mod_eq_of_lt (of_decide_eq_true hwf)]
  | fmtDiag a e p k =>
    rw [decode_encode_eq_decodeWord hwf rfl rfl]
    simp only [Instr.wellFormed, Bool.and_eq_true, decide_eq_true_eq] at hwf
    simp [decodeWord, packDiag_fields hwf.2]
  | frame1n d | frame2n d | frame3n d | frame4n d | frame5n d | frame6n d | frame7n d | frame8n d =>
    rw [decode_encode_eq_decodeWord hwf rfl rfl]
    exact decodeWord_frame d (by simp [frameInstr, packFrame_div])
  | frame1p d p | frame2p d p | frame3p d p | frame4p d p | frame5p d p | frame6p d p | frame7p d p
  | frame8p d p =>
    rw [decode_encode_eq_decodeWord hwf rfl rfl]
    exact decodeWord_frameP d p (by simp [frameInstr, packFrameP_div])

/-- Settles O3: each format's words are read back to their fields, and the illegal ones are refused. -/
theorem encodeOfDecode : Obligations.EncodeOfDecode := fun _ _ _ => reads_of_decode

end Sys2Proof
end

section
/-! SUPPORT. What `exec` does outside the states that select an operation (log 4, log 14), and what the operations of
the request port leave alone (10_state R33). -/

namespace Sys2Proof.Machine

/-- An operation under a condition writes what it writes, or nothing. -/
theorem ite_next_txFrame {c : Prop} [Decidable c] {s u : State} (hu : TxFrame s u) :
    ∃ t, (if c then .next u else .next s : Result) = .next t ∧ TxFrame s t := by
  split
  · exact ⟨u, rfl, hu⟩
  · exact ⟨s, rfl, rfl⟩

/-- R33: an instruction of the request port goes on, whatever the state, and writes TX's side only. -/
theorem exec_transmitter_frame {i : Instr} {W : Nat}
    (hfmt : (encode W i).fmt = .request ∨ (encode W i).fmt = .clock) (s : State) :
    ∃ t, exec i s = .next t ∧ TxFrame s t := by
  cases i
  case tx | txidle | txhold | txdata | txparity | txstop | txend => exact ite_next_txFrame rfl
  case txRefused v => exact ⟨s, rfl, rfl⟩
  all_goals simp [encode] at hfmt

/-- The queue's bytes are read from the queue and the epoch, which TX does not write. -/
theorem TxFrame.entry_eq {s t : State} (h : TxFrame s t) (a : Nat) : t.entry a = s.entry a := by
  rw [TxFrame] at h
  rw [h]
  rfl

theorem State.rxIn_ne_true_of_state {r : RxState} {s : State} (h : s.rx.state ≠ r) : ¬ s.rxIn r = true :=
  fun hin => h (State.rxIn_eq_true.1 hin).2

theorem State.rxIn_ne_true_of_production {r : RxState} {s : State} (h : s.cfg.verify = false) :
    ¬ s.rxIn r = true := by
  rw [State.rxIn_eq_true, h]
  exact fun hin => Bool.false_ne_true hin.1

/-- Log 4: a port's instruction that the state does not select is not performed. -/
theorem exec_of_not_selected {i : Instr} {W : Nat} {s : State} (hport : onPort (encode W i).fmt = true)
    (hsel : i.selectedBy s.select = false) : exec i s = .next s := by
  cases i
  case txRefused v => rfl
  case tx | txidle | txhold | txdata | txparity | txstop | txend => exact if_neg (of_decide_eq_false hsel)
  case evIdle0 | evInword | evParity | evStop1 | evStop0 =>
    exact if_neg (State.rxIn_ne_true_of_state (of_decide_eq_false hsel))
  case evIdle1 | evFault => rfl
  case por | rxreset | rxread => cases hsel
  all_goals cases hport

/-- Log 14: without a receiver its operations change nothing. -/
theorem exec_of_production {i : Instr} {W : Nat} {s : State} (hv : s.cfg.verify = false)
    (hfmt : (encode W i).fmt = .event ∨ (encode W i).fmt = .readStrobe ∨ (encode W i).fmt = .resetStrobe) :
    exec i s = .next s := by
  cases i
  case evIdle0 | evInword | evParity | evStop1 | evStop0 =>
    exact if_neg (State.rxIn_ne_true_of_production hv)
  case evIdle1 | evFault => rfl
  case rxreset | rxread => exact if_neg (Bool.eq_false_iff.1 hv)
  all_goals simp [encode] at hfmt

/-- The row an event word selects runs as `eventInstr`; a word without an event runs nothing (R150). -/
theorem execAll_evInstrs (w : Nat) (s : State) :
    execAll (evInstrs s.select w) s =
      if evtValid s.cfg.tsWidth w then
        exec (eventInstr s.rx.state (evtLevel s.cfg.tsWidth w) (evtTs s.cfg.tsWidth w)) s
      else .next s := by
  rw [evInstrs, decodeEvent_eq_ite]
  change execAll (if evtValid s.cfg.tsWidth w then _ else none : Option Instr).toList s = _
  split
  · exact execAll_singleton _ _
  · rfl

theorem readPhase_of_production {p : Ports} {s : State} (hv : s.cfg.verify = false) :
    readPhase p s = .next s := by
  rw [readPhase]
  split
  · exact (execAll_singleton _ _).trans (exec_of_production (W := 0) hv (.inr (.inl rfl)))
  · rfl

theorem rxPhase_of_production {p : Ports} {s : State} (hv : s.cfg.verify = false) :
    rxPhase p s = .next s := by
  rw [rxPhase]
  split
  · exact (execAll_singleton _ _).trans (exec_of_production (W := 0) hv (.inr (.inr rfl)))
  · rw [execAll_evInstrs]
    split
    · exact exec_of_production (W := 0) hv (.inl (by rw [encode_eventInstr]))
    · rfl

/-- A request enters TX through its word and its parity level only (R67, R121). -/
theorem State.load_congr {v v' : Byte} {s : State} (h : ∀ i, i < s.cfg.bits → v.getLsbD i = v'.getLsbD i) :
    s.load v = s.load v' := by
  rw [State.load, State.load, wordOf_congr h, parityLevel_congr h]

end Sys2Proof.Machine
end

section
/-! The statements about the single operations and about who writes what (10_state, 42_transmission_driver,
60_exceptions). -/

namespace Sys2Proof.Machine

/-- Settles O11: an accept loads the word and the parity level of the low bits, and nothing else of the value. -/
theorem requestBitsAboveTheWordAreIgnored : Obligations.RequestBitsAboveTheWordAreIgnored := by
  intro v v' s h
  change execTx v s = execTx v' s
  rw [execTx, execTx, State.load_congr h]

/-- Settles O17: the frame of a TX operation contains the queue's memory and its epoch. -/
theorem transmitterOperationsLeaveTheReceiver : Obligations.TransmitterOperationsLeaveTheReceiver := by
  intro i s W hfmt
  obtain ⟨t, hexec, hframe⟩ := exec_transmitter_frame hfmt s
  exact ⟨t, hexec, hframe, hframe.entry_eq⟩

/-- Settles O18: each operation stands under the condition that selects it. -/
theorem unselectedOperationsAreNotPerformed : Obligations.UnselectedOperationsAreNotPerformed :=
  ⟨fun _ _ => exec_of_not_selected, fun _ _ _ => exec_of_production⟩

/-- Settles O29: the read and the receiver's phase are the identity, and TX's operation does not touch the receiver. -/
theorem productionHasNoReceiver : Obligations.ProductionHasNoReceiver := by
  intro p s t hv hpor hcycle
  obtain ⟨r, x, y, hread, htx, hrx, rfl⟩ := (cycle_eq_next hpor).1 hcycle
  rw [readPhase_of_production (s := s.begin) hv] at hread
  cases hread
  rw [txPhase_eq_txStep] at htx
  cases htx
  have hframe := s.begin.txStep_frame p.txreq
  rw [TxFrame] at hframe
  rw [rxPhase_of_production (by rw [hframe]; exact hv)] at hrx
  cases hrx
  rw [hframe]
  exact ⟨rfl, rfl, rfl⟩

/-- Settles O52: TX's side of a cycle is `txStep`, which reads the configuration, TX and the clock only. -/
theorem transmitterIgnoresTheReceiver : Obligations.TransmitterIgnoresTheReceiver := by
  intro p q s u s' u' hcfg htx hcyc hp hq hreq hs hu
  obtain ⟨-, hscyc, hstx, hswr⟩ := cycle_tx hp hs
  obtain ⟨-, hucyc, hutx, huwr⟩ := cycle_tx hq hu
  obtain ⟨htx', hwr'⟩ := State.txStep_congr (s := u.begin) (t := s.begin) q.txreq htx hcfg hcyc
  refine ⟨?_, ?_, ?_⟩
  · rw [hstx, hutx, hreq, htx']
  · rw [hswr, huwr, hreq, hwr']
  · rw [hscyc, hucyc, hcyc, hcfg]

end Sys2Proof.Machine
end

section
/-! SUPPORT. What a valid configuration bounds (00_scope R4, 40_timing_controller R90), and the reset values under any
valid configuration (10_state R31). -/

namespace Sys2Proof.Machine

section
variable {c : Cfg} (h : c.valid = true)
include h

theorem bits_bounds_of_valid : 1 ≤ c.bits ∧ c.bits ≤ 8 := legalDataBits_eq_true.1 (Cfg.valid_eq_true.1 h).1

theorem cpb_pos_of_valid : 0 < c.cpb := (legalCpb_eq_true.1 (Cfg.legalCpb_of_valid h)).1

theorem cpb_lt_tsMod_of_valid : c.cpb < c.tsMod := (legalCpb_eq_true.1 (Cfg.legalCpb_of_valid h)).2.2

theorem capacity_pos_of_valid : 0 < c.queueCapacity := by
  obtain ⟨-, -, -, -, hcapacity⟩ := Cfg.valid_eq_true.1 h
  exact hcapacity

theorem txOk_reset : TxOk c State.reset.tx where
  rem_le := Nat.zero_le _
  cnt_lt := cpb_pos_of_valid h
  start_rem := nofun
  late_rem := fun _ => rfl
  parity_configured := nofun
  start_level := nofun
  mark_level := fun _ => rfl
  excl_iff := by decide

omit h in
theorem rxOk_clear (c : Cfg) : RxOk c Rx.clear where
  prev_lt := Nat.two_pow_pos _
  rem_le := Nat.zero_le _
  inWord_rem := nofun
  parity_configured := nofun
  inWord_acc := nofun
  word_acc := nofun
  diag_iff := by decide
  diag_clear := fun _ => rfl
  diag_fits := ⟨Nat.two_pow_pos _, Nat.two_pow_pos _, by decide⟩
  framing_policy := nofun

theorem queueOk_reset : QueueOk c State.reset.queue where
  head_lt := capacity_pos_of_valid h
  count_le := Nat.zero_le _
  mem_wf := rfl
  cells_fit := nofun
  entries_written := nofun

end

theorem tsMod_pos (c : Cfg) : 0 < c.tsMod := Nat.two_pow_pos _

/-- A block whose registers are as reset leaves them is good on every valid configuration. -/
theorem inv_of_reset_values {s : State} (hvalid : s.cfg.valid = true) (hcyc : s.cyc < s.cfg.tsMod)
    (htx : s.tx = State.reset.tx) (hrx : s.rx = Rx.clear) (hqueue : s.queue = State.reset.queue) : s.Inv where
  valid := hvalid
  cyc_lt := hcyc
  tx := htx ▸ txOk_reset hvalid
  rx := hrx ▸ rxOk_clear _
  queue := hqueue ▸ queueOk_reset hvalid
  quiescent := fun _ => ⟨htx, hrx, hqueue⟩

theorem powerOn_inv {s : State} (h : s.Inv) : s.powerOn.Inv :=
  inv_of_reset_values h.valid (tsMod_pos _) rfl rfl rfl

/-- The lines, the ports and the observer's record are no part of the invariant. -/
theorem inv_of_same_block {s t : State} (h : s.Inv)
    (ht : t = { s with inp := t.inp, out := t.out, obs := t.obs, host := t.host, epoch := t.epoch }) : t.Inv := by
  rw [ht]
  exact ⟨h.valid, h.cyc_lt, h.tx, h.rx, h.queue, h.quiescent⟩

/-- In a running block the invariant is that of the clock, TX, RX and the queue. -/
theorem inv_of_running {s t : State} (h : s.Inv) (hrun : t.running = true) (hcfg : t.cfg = s.cfg)
    (hcyc : t.cyc < s.cfg.tsMod) (htx : TxOk s.cfg t.tx) (hrx : RxOk s.cfg t.rx)
    (hqueue : QueueOk s.cfg t.queue) : t.Inv := by
  rw [← hcfg] at hcyc htx hrx hqueue
  exact ⟨hcfg ▸ h.valid, hcyc, htx, hrx, hqueue, fun hr => absurd (hrun.symm.trans hr) (by decide)⟩

end Sys2Proof.Machine
end

section
/-! SUPPORT. TX's part of the invariant under its operation (10_state R12 to R18, R34). -/

namespace Sys2Proof.Machine

/-- R120: all that a selection says of the state, beside the request port's `TxIdle`. -/
theorem State.txSel_cases (s : State) :
    (s.txSel = .idle ∧ s.tx.seg = .idle) ∨
    (s.txSel = .hold ∧ s.tx.seg ≠ .idle ∧ s.tx.cnt ≠ 0) ∨
    (s.tx.seg ≠ .idle ∧ s.tx.cnt = 0 ∧
      ((s.txSel = .data ∧ (s.tx.seg = .start ∨ s.tx.seg = .data) ∧ s.tx.rem ≠ 0) ∨
        (s.txSel = .parity ∧ (s.tx.seg = .start ∨ s.tx.seg = .data) ∧ s.tx.rem = 0 ∧ s.cfg.parityMode ≠ .none) ∨
        (s.txSel = .stop ∧ (s.tx.seg = .parity ∨
          ((s.tx.seg = .start ∨ s.tx.seg = .data) ∧ s.tx.rem = 0 ∧ s.cfg.parityMode = .none))) ∨
        (s.txSel = .finish ∧ s.tx.seg = .stop))) := by
  by_cases hidle : s.tx.seg = .idle
  · exact .inl ⟨s.txSel_idle_iff.2 hidle, hidle⟩
  by_cases hcnt : s.tx.cnt = 0
  · refine .inr (.inr ⟨hidle, hcnt, ?_⟩)
    cases hseg : s.tx.seg with
    | idle => exact absurd hseg hidle
    | start | data =>
      have hsel : s.txSel = s.boundarySel := State.txSel_eq_boundarySel (by simp [hseg]) hcnt
      rw [hsel]
      by_cases hrem : s.tx.rem = 0
      · by_cases hpar : s.cfg.parityMode = .none
        · simp [State.boundarySel_eq_stop hrem hpar, hrem, hpar]
        · simp [State.boundarySel_eq_parity hrem hpar, hrem, hpar]
      · exact .inl ⟨State.boundarySel_eq_data hrem, by simp, hrem⟩
    | parity => simp [State.txSel_eq_stop hcnt (.inl hseg)]
    | stop => simp [State.txSel_eq_finish hseg hcnt]
  · exact .inr (.inl ⟨State.txSel_eq_hold hidle hcnt, hidle, hcnt⟩)

theorem toNat_pred {r : BitVec 4} (h : r ≠ 0) : (r - 1).toNat = r.toNat - 1 := by
  have hpos : r.toNat ≠ 0 := fun h0 => h (BitVec.eq_of_toNat_eq h0)
  exact BitVec.toNat_sub_of_le (by rw [BitVec.le_def]; simpa using Nat.one_le_iff_ne_zero.2 hpos)

/-- Every TX operation keeps TX's part of the invariant. -/
theorem txStep_txOk {s : State} (w : BitVec 9) (hvalid : s.cfg.valid = true) (h : TxOk s.cfg s.tx) :
    TxOk s.cfg (s.txStep w).tx := by
  have hcpb : 0 < s.cfg.cpb := cpb_pos_of_valid hvalid
  have hrem := h.rem_le
  rcases s.txSel_cases with ⟨hsel, hseg⟩ | ⟨hsel, hseg, hne⟩ | ⟨hseg, h0, ⟨hsel, hfrom, hr⟩ |
    ⟨hsel, hfrom, hr, hpm⟩ | ⟨hsel, hfrom⟩ | ⟨hsel, hfrom⟩⟩
  · cases hw : valid9 w
    · simpa [State.txStep, hsel, hw] using h
    · constructor <;> simp [State.txStep, hsel, hw, hcpb, Cfg.bits]
  · have htx : (s.txStep w).tx = { s.tx with cnt := s.tx.cnt - 1 } := by simp [State.txStep, hsel]
    rw [htx]
    exact ⟨hrem, (Nat.sub_le _ _).trans_lt h.cnt_lt, h.start_rem, h.late_rem, h.parity_configured, h.start_level,
      h.mark_level, h.excl_iff⟩
  · have hle : (s.tx.rem - 1#4).toNat ≤ s.cfg.bits := (toNat_pred hr).trans_le ((Nat.sub_le _ _).trans hrem)
    constructor <;> simp [State.txStep, hsel, hcpb, h.excl_iff.2 hseg, -BitVec.toNat_sub, hle]
  · constructor <;> simp [State.txStep, hsel, hcpb, h.excl_iff.2 hseg, hr, hpm]
  · have hzero : s.tx.rem = 0 := hfrom.elim (fun hp => h.late_rem (.inl hp)) fun hd => hd.2.1
    constructor <;> simp [State.txStep, hsel, hcpb, h.excl_iff.2 hseg, hzero]
  · constructor <;> simp [State.txStep, hsel, h.cnt_lt, hrem, h.mark_level (.inr hfrom)]

end Sys2Proof.Machine
end

section
/-! SUPPORT. RX's part of the invariant and the queue's under the event operations, the reset and the read
(10_state R22 to R34, 20_memory R40 to R43). -/

namespace Sys2Proof.Machine

/-! ### The accumulator -/

theorem toNat_foldRx_lsb (acc : Byte) (l : Level) :
    (foldRx .lsb acc l).toNat = acc.toNat / 2 + 2 ^ 7 * levelNat l := by
  revert acc l; decide +kernel

theorem toNat_foldRx_msb (acc : Byte) (l : Level) :
    (foldRx .msb acc l).toNat = acc.toNat * 2 % 256 + levelNat l := by
  revert acc l; decide +kernel

/-- R154: one more level is folded into an accumulator that still has room. -/
theorem accHolds_foldRx {order : BitOrder} {k : Nat} {acc : Byte} (l : Level) (hk : k < 8)
    (h : accHolds order k acc) : accHolds order (k + 1) (foldRx order acc l) := by
  cases order with
  | lsb =>
    have hsub : 8 - k = (8 - (k + 1)) + 1 := by omega
    obtain ⟨q, hq⟩ := Nat.dvd_of_mod_eq_zero h
    have hhalf : acc.toNat / 2 = 2 ^ (8 - (k + 1)) * q := by
      rw [hq, hsub, pow_succ, Nat.mul_right_comm, Nat.mul_div_cancel _ Nat.two_pos]
    refine Nat.mod_eq_zero_of_dvd ?_
    rw [toNat_foldRx_lsb, hhalf]
    exact dvd_add (dvd_mul_right _ _) ((pow_dvd_pow 2 (by omega)).mul_right _)
  | msb =>
    have hlevel := levelNat_lt l
    have hacc : acc.toNat < 2 ^ k := h
    change (foldRx .msb acc l).toNat < 2 ^ (k + 1)
    rw [toNat_foldRx_msb, pow_succ]
    omega

/-- R162: the realigned word has no bit above `n`. -/
theorem decoded_lt {order : BitOrder} {n : Nat} {acc : Byte} (hn : n ≤ 8) (h : accHolds order n acc) :
    (decoded order n acc).toNat < 2 ^ n := by
  cases order with
  | lsb =>
    rw [decoded, BitVec.toNat_ushiftRight, Nat.shiftRight_eq_div_pow]
    refine Nat.div_lt_of_lt_mul ?_
    rw [← pow_add, Nat.sub_add_cancel hn]
    exact acc.isLt
  | msb => exact h

/-! ### The receiver's registers -/

/-- A receiver in Fault is good when its diagnostic is a real one and fits (R26). -/
theorem rxOk_fault {c : Cfg} {acc : Byte} {rem : BitVec 4} {prev : Nat} {d : Diag} (hprev : prev < c.tsMod)
    (hrem : rem.toNat ≤ c.bits) (hkind : d.kind ≠ .none)
    (hfits : d.expected < c.tsMod ∧ d.actual < c.tsMod ∧ d.position.toNat ≤ 9)
    (hframing : d.kind = .framingError → c.stop0Policy = .framingFault) :
    RxOk c ⟨.fault, acc, rem, prev, d⟩ where
  prev_lt := hprev
  rem_le := hrem
  inWord_rem := nofun
  parity_configured := nofun
  inWord_acc := nofun
  word_acc := nofun
  diag_iff := iff_of_true hkind rfl
  diag_clear := fun h => absurd rfl h
  diag_fits := hfits
  framing_policy := hframing

/-- A receiver outside Fault is good when its word so far is. -/
theorem rxOk_of_clear_diag {c : Cfg} {st : RxState} {acc : Byte} {rem : BitVec 4} {prev : Nat} {d : Diag}
    (hst : st ≠ .fault) (hd : d = Diag.clear) (hprev : prev < c.tsMod) (hrem : rem.toNat ≤ c.bits)
    (hinWord : st = .inWord → 1 ≤ rem.toNat ∧ accHolds c.bitOrder (c.bits - rem.toNat) acc)
    (hparity : st = .parityBit → c.parityMode ≠ .none)
    (hword : st = .parityBit ∨ st = .stopBit → accHolds c.bitOrder c.bits acc) :
    RxOk c ⟨st, acc, rem, prev, d⟩ where
  prev_lt := hprev
  rem_le := hrem
  inWord_rem := fun h => (hinWord h).1
  parity_configured := hparity
  inWord_acc := fun h => (hinWord h).2
  word_acc := hword
  diag_iff := iff_of_false (fun h => h (congrArg Diag.kind hd)) hst
  diag_clear := fun _ => hd
  diag_fits := by subst hd; exact ⟨tsMod_pos c, tsMod_pos c, Nat.zero_le _⟩
  framing_policy := by subst hd; nofun

/-! ### The queue -/

/-- R43, R44: a write that fits, at an index of the queue, keeps the memory's form. -/
theorem cells_fit_write {c : Cfg} {m : Memory} {a : Nat} {v : Byte} (ha : a < c.queueCapacity)
    (hv : v.toNat < 2 ^ c.bits) (hm : ∀ cell ∈ m, cell.1 < c.queueCapacity ∧ cell.2.toNat < 2 ^ c.bits) :
    ∀ cell ∈ m.write a v, cell.1 < c.queueCapacity ∧ cell.2.toNat < 2 ^ c.bits := by
  intro cell hcell
  rcases Memory.mem_of_mem_write hcell with rfl | hcell
  · exact ⟨ha, hv⟩
  · exact hm cell hcell

theorem isSome_read_write {m : Memory} {a b : Nat} (v : Byte)
    (h : b ≠ a → (Memory.read b m).isSome = true) : (Memory.read b (m.write a v)).isSome = true := by
  by_cases hab : b = a
  · rw [hab, Memory.read_write_self]
    rfl
  · rw [Memory.read_write_other v m hab]
    exact h hab

/-- The entry behind the ring's head is one further on. -/
theorem ring_index_succ (h i n : Nat) : ((h + 1) % n + i) % n = (h + (i + 1)) % n := by
  rw [Nat.mod_add_mod, Nat.add_assoc, Nat.add_comm 1 i]

/-- A push of a byte that fits keeps the queue's part of the invariant, with room or on either policy (R43). -/
theorem push_queueOk {s t : State} {v : Byte} (h : QueueOk s.cfg s.queue) (hv : v.toNat < 2 ^ s.cfg.bits)
    (hpush : s.push v = .next t) : QueueOk s.cfg t.queue := by
  obtain ⟨hhead, hcount, hwf, hcells, hwritten⟩ := h
  have hcap : 0 < s.cfg.queueCapacity := Nat.zero_lt_of_lt hhead
  rcases s.push_cases v with ⟨hlt, e⟩ | ⟨_, _, e⟩ | ⟨hfull, _, _, e⟩ | ⟨_, _, _, e⟩ <;>
    rw [e] at hpush <;> cases hpush
  · refine ⟨hhead, hlt, Memory.write_wf hwf, cells_fit_write (Nat.mod_lt _ hcap) hv hcells, fun i hi => ?_⟩
    refine isSome_read_write v fun hne => hwritten i ?_
    have hi' : i < s.queue.count + 1 := hi
    by_contra hge
    exact hne (by rw [State.tail, show i = s.queue.count by omega])
  · exact ⟨hhead, hcount, hwf, hcells, hwritten⟩
  · refine ⟨Nat.mod_lt _ hcap, hcount, Memory.write_wf hwf, cells_fit_write hhead hv hcells, fun i hi => ?_⟩
    rw [ring_index_succ]
    refine isSome_read_write v fun hne => hwritten (i + 1) ?_
    have hi' : i < s.queue.count := hi
    by_contra hge
    refine hne ?_
    rw [show i + 1 = s.cfg.queueCapacity by omega, Nat.add_mod_right, Nat.mod_eq_of_lt hhead]

/-- A pop keeps the queue's part of the invariant (R42). -/
theorem pop_queueOk {s t : State} (h : QueueOk s.cfg s.queue) (hpop : s.pop = .next t) :
    QueueOk s.cfg t.queue := by
  rcases s.pop_cases with ⟨_, e⟩ | ⟨hne, _, e⟩ | ⟨_, _, e⟩ <;> rw [e] at hpop <;> cases hpop
  · exact h
  · obtain ⟨hhead, hcount, hwf, hcells, hwritten⟩ := h
    refine ⟨Nat.mod_lt _ (Nat.zero_lt_of_lt hhead), (Nat.sub_le _ _).trans hcount, hwf, hcells, fun i hi => ?_⟩
    have hi' : i < s.queue.count - 1 := hi
    rw [ring_index_succ]
    exact hwritten (i + 1) (by omega)

/-! ### The operations -/

/-- What an operation of the receiver keeps: RX's part of the invariant and the queue's. -/
def ReceiverOk (c : Cfg) (t : State) : Prop := RxOk c t.rx ∧ QueueOk c t.queue

theorem elapsed_lt (s : State) (ts : Nat) : s.elapsed ts < s.cfg.tsMod := Nat.mod_lt _ (tsMod_pos _)

/-- A mistimed event leaves a good receiver in Fault, an event on time what its rule makes of it. -/
theorem timed_receiverOk {s t : State} {ts : Nat} {pos : BitVec 4} {k : State → Result}
    (hcpb : s.cfg.cpb < s.cfg.tsMod) (hts : ts < s.cfg.tsMod) (hrem : s.rx.rem.toNat ≤ s.cfg.bits)
    (hpos : pos.toNat ≤ 9) (hqueue : QueueOk s.cfg s.queue)
    (hk : ∀ u, k (s.stamp ts) = .next u → ReceiverOk s.cfg u) (h : s.timed ts pos k = .next t) :
    ReceiverOk s.cfg t := by
  rcases s.timed_cases ts pos k with ⟨_, e⟩ | ⟨_, e⟩
  · exact hk t (e ▸ h)
  · rw [e] at h
    cases h
    exact ⟨rxOk_fault hts hrem nofun ⟨hcpb, elapsed_lt s ts, hpos⟩ nofun, hqueue⟩

theorem startFrame_rxOk {s : State} {ts : Nat} (hvalid : s.cfg.valid = true) (hst : s.rx.state = .idle)
    (h : RxOk s.cfg s.rx) (hts : ts < s.cfg.tsMod) : RxOk s.cfg (s.startFrame ts).rx := by
  refine rxOk_of_clear_diag nofun (h.diag_clear (by simp [hst])) hts le_rfl
    (fun _ => ⟨(bits_bounds_of_valid hvalid).1, ?_⟩) nofun (by simp)
  cases s.cfg.bitOrder <;> simp [accHolds]

/-- R154: the fold of a data event on time, and the state it leads to. -/
theorem afterData_rxOk {s : State} {l : Level} {ts : Nat} (hvalid : s.cfg.valid = true)
    (hst : s.rx.state = .inWord) (h : RxOk s.cfg s.rx) (hts : ts < s.cfg.tsMod) :
    RxOk s.cfg ((s.foldBit l).stamp ts).afterData.rx := by
  have hle := h.rem_le
  have hone := h.inWord_rem hst
  have hbits := (bits_bounds_of_valid hvalid).2
  have hpred : (s.rx.rem - 1).toNat = s.rx.rem.toNat - 1 := toNat_pred fun h0 => by simp [h0] at hone
  have hclear : s.rx.diag = Diag.clear := h.diag_clear (by simp [hst])
  have hfold := accHolds_foldRx l (by omega) (h.inWord_acc hst)
  rw [show s.cfg.bits - s.rx.rem.toNat + 1 = s.cfg.bits - (s.rx.rem - 1).toNat by omega] at hfold
  have hstate : ((s.foldBit l).stamp ts).afterData.rx = { s.rx with
      state := if s.rx.rem - 1 = 0 then (if s.cfg.parityMode = .none then .stopBit else .parityBit) else .inWord
      acc := foldRx s.cfg.bitOrder s.rx.acc l, rem := s.rx.rem - 1, prevTs := ts } := by
    rw [State.afterData_eq, ← hst]
    rfl
  rw [hstate]
  by_cases hzero : s.rx.rem - 1 = 0
  · rw [hzero] at hfold ⊢
    by_cases hpar : s.cfg.parityMode = .none
    · simp only [hpar, if_true]
      exact rxOk_of_clear_diag nofun hclear hts (Nat.zero_le _) nofun nofun fun _ => hfold
    · simp only [hpar, if_true, if_false]
      exact rxOk_of_clear_diag nofun hclear hts (Nat.zero_le _) nofun (fun _ => hpar) fun _ => hfold
  · simp only [hzero, if_false]
    refine rxOk_of_clear_diag nofun hclear hts (by omega) (fun _ => ⟨?_, hfold⟩) nofun (by simp)
    exact Nat.one_le_iff_ne_zero.2 fun h0 => hzero (BitVec.eq_of_toNat_eq h0)

theorem levelNat_lt_tsMod {c : Cfg} (hvalid : c.valid = true) (l : Level) : levelNat l < c.tsMod := by
  have hpos := cpb_pos_of_valid hvalid
  have hlt := cpb_lt_tsMod_of_valid hvalid
  have hlevel := levelNat_lt l
  omega

/-- R155, R202: both outcomes of the parity check. -/
theorem checkParity_rxOk {s : State} {l : Level} {ts : Nat} (hvalid : s.cfg.valid = true)
    (hst : s.rx.state = .parityBit) (h : RxOk s.cfg s.rx) (hts : ts < s.cfg.tsMod) :
    RxOk s.cfg ((s.stamp ts).checkParity l).rx := by
  unfold State.checkParity
  split
  · exact rxOk_of_clear_diag nofun (h.diag_clear (by simp [hst])) hts h.rem_le nofun nofun fun _ =>
      h.word_acc (.inl hst)
  · have hbits : s.cfg.dataBits.toNat ≤ 8 := (bits_bounds_of_valid hvalid).2
    exact rxOk_fault hts h.rem_le nofun
      ⟨levelNat_lt_tsMod hvalid _, levelNat_lt_tsMod hvalid _, hbits.trans (by decide)⟩ nofun

theorem toRx_idle_rxOk {s : State} {ts : Nat} (hst : s.rx.state ≠ .fault) (h : RxOk s.cfg s.rx)
    (hts : ts < s.cfg.tsMod) : RxOk s.cfg ((s.stamp ts).toRx .idle).rx :=
  rxOk_of_clear_diag nofun (h.diag_clear hst) hts h.rem_le nofun nofun (by simp)

/-- R156: a commit keeps both parts, because the realigned word fits. -/
theorem commit_receiverOk {s t : State} {ts : Nat} (hvalid : s.cfg.valid = true)
    (hst : s.rx.state = .stopBit) (h : RxOk s.cfg s.rx) (hqueue : QueueOk s.cfg s.queue)
    (hts : ts < s.cfg.tsMod) (hcommit : (s.stamp ts).commit = .next t) : ReceiverOk s.cfg t := by
  obtain ⟨u, hpush, rfl⟩ := State.commit_eq_next.1 hcommit
  have hword := decoded_lt (bits_bounds_of_valid hvalid).2 (h.word_acc (.inr hst))
  have hpushed : QueueOk s.cfg u.queue := push_queueOk (s := s.stamp ts) hqueue hword hpush
  refine ⟨?_, hpushed⟩
  rw [State.push_frame hpush]
  exact toRx_idle_rxOk (by simp [hst]) h hts

theorem stopPosition_le {s : State} (hvalid : s.cfg.valid = true) : s.stopPosition.toNat ≤ 9 := by
  have hbits : s.cfg.dataBits.toNat ≤ 8 := (bits_bounds_of_valid hvalid).2
  rw [State.stopPosition]
  split <;> simp <;> omega

/-- R157, R203: the three policies of a level-0 stop event on time. -/
theorem badStop_receiverOk {s t : State} {ts : Nat} (hvalid : s.cfg.valid = true)
    (hst : s.rx.state = .stopBit) (h : RxOk s.cfg s.rx) (hqueue : QueueOk s.cfg s.queue)
    (hts : ts < s.cfg.tsMod) (hstop : (s.stamp ts).badStop = .next t) : ReceiverOk s.cfg t := by
  cases hpolicy : s.cfg.stop0Policy with
  | dropSilently =>
    rw [State.badStop_of_dropSilently (s := s.stamp ts) hpolicy] at hstop
    cases hstop
    exact ⟨toRx_idle_rxOk (by simp [hst]) h hts, hqueue⟩
  | commitAnyway =>
    rw [State.badStop_of_commitAnyway (s := s.stamp ts) hpolicy] at hstop
    exact commit_receiverOk hvalid hst h hqueue hts hstop
  | framingFault =>
    rw [State.badStop_of_framingFault (s := s.stamp ts) hpolicy] at hstop
    cases hstop
    exact ⟨rxOk_fault hts h.rem_le nofun
      ⟨levelNat_lt_tsMod hvalid true, tsMod_pos _, stopPosition_le (s := s.stamp ts) hvalid⟩ fun _ => hpolicy, hqueue⟩

/-- The event that a good receiver's state selects keeps it good. -/
theorem exec_eventInstr_receiverOk {s t : State} {l : Level} {ts : Nat} (h : s.Inv) (hts : ts < s.cfg.tsMod)
    (hexec : exec (eventInstr s.rx.state l ts) s = .next t) : ReceiverOk s.cfg t := by
  have hbits : s.cfg.dataBits.toNat ≤ 8 := (bits_bounds_of_valid h.valid).2
  have hcpb := cpb_lt_tsMod_of_valid h.valid
  have hsame : exec (eventInstr s.rx.state l ts) s = .next s → ReceiverOk s.cfg t := fun hs => by
    rw [hs] at hexec
    cases hexec
    exact ⟨h.rx, h.queue⟩
  cases hv : s.cfg.verify with
  | false => exact hsame (exec_of_production (W := 0) hv (.inl (by rw [encode_eventInstr])))
  | true =>
    cases hst : s.rx.state with
    | idle =>
      cases l with
      | true => exact hsame (by rw [hst]; rfl)
      | false =>
        rw [hst] at hexec
        cases (exec_evIdle0 hv hst ts).symm.trans hexec
        exact ⟨startFrame_rxOk h.valid hst h.rx hts, h.queue⟩
    | inWord =>
      rw [hst, eventInstr, exec_evInword hv hst] at hexec
      have hone := h.rx.inWord_rem hst
      have hle : s.rx.rem.toNat ≤ s.cfg.dataBits.toNat := h.rx.rem_le
      have hpred : (s.rx.rem - 1).toNat = s.rx.rem.toNat - 1 := toNat_pred fun h0 => by simp [h0] at hone
      have hpos : (s.cfg.dataBits - s.rx.rem).toNat ≤ 9 := by rw [BitVec.toNat_sub_of_le hle]; omega
      refine timed_receiverOk (s := s.foldBit l) hcpb hts ?_ hpos h.queue ?_ hexec
      · exact hpred.trans_le ((Nat.sub_le _ _).trans hle)
      · rintro u ⟨⟩
        refine ⟨afterData_rxOk h.valid hst h.rx hts, ?_⟩
        rw [State.afterData_eq]
        exact h.queue
    | parityBit =>
      rw [hst, eventInstr, exec_evParity hv hst] at hexec
      refine timed_receiverOk hcpb hts h.rx.rem_le (hbits.trans (by decide)) h.queue ?_ hexec
      rintro u ⟨⟩
      refine ⟨checkParity_rxOk h.valid hst h.rx hts, ?_⟩
      unfold State.checkParity
      split <;> exact h.queue
    | stopBit =>
      have hpos := stopPosition_le h.valid
      cases l with
      | true =>
        rw [hst, eventInstr, if_pos rfl, exec_evStop1_eq_timed hv hst] at hexec
        exact timed_receiverOk hcpb hts h.rx.rem_le hpos h.queue
          (fun u => commit_receiverOk h.valid hst h.rx h.queue hts) hexec
      | false =>
        rw [hst, eventInstr, if_neg Bool.false_ne_true, exec_evStop0_eq_timed hv hst] at hexec
        exact timed_receiverOk hcpb hts h.rx.rem_le hpos h.queue
          (fun u => badStop_receiverOk h.valid hst h.rx h.queue hts) hexec
    | fault => exact hsame (by rw [hst]; rfl)

end Sys2Proof.Machine
end

section
/-! SUPPORT. The invariant over the phases of a cycle (60_exceptions R211), and that they go on from a good state
(00_scope R8). -/

namespace Sys2Proof.Machine

theorem begin_inv {s : State} (h : s.Inv) : s.begin.Inv :=
  inv_of_running h rfl rfl h.cyc_lt h.tx h.rx h.queue

theorem tick_inv {s : State} (h : s.Inv) (hrun : s.running = true) : s.tick.Inv :=
  inv_of_running h hrun rfl (Nat.mod_lt _ (tsMod_pos _)) h.tx h.rx h.queue

theorem readPhase_inv {p : Ports} {s t : State} (h : s.Inv) (hrun : s.running = true)
    (hread : readPhase p s = .next t) : t.Inv ∧ t.running = true := by
  have hframe := readPhase_frame hread
  have hqueue : QueueOk s.cfg t.queue := by
    unfold readPhase at hread
    split at hread
    · rw [execAll_singleton] at hread
      cases hv : s.cfg.verify with
      | false =>
        cases (exec_of_production (i := .rxread) (W := 0) hv (.inr (.inl rfl))).symm.trans hread
        exact h.queue
      | true => exact pop_queueOk h.queue ((exec_rxread hv).symm.trans hread)
    · cases hread
      exact h.queue
  rw [hframe]
  exact ⟨inv_of_running h hrun rfl h.cyc_lt h.tx h.rx hqueue, hrun⟩

theorem txStep_inv {s : State} (w : BitVec 9) (h : s.Inv) (hrun : s.running = true) :
    (s.txStep w).Inv ∧ (s.txStep w).running = true := by
  have htx := txStep_txOk w h.valid h.tx
  have hframe := s.txStep_frame w
  rw [TxFrame] at hframe
  rw [hframe]
  exact ⟨inv_of_running h hrun rfl h.cyc_lt htx h.rx h.queue, hrun⟩

theorem evtTs_lt (c : Cfg) (w : Nat) : evtTs c.tsWidth w < c.tsMod := Nat.mod_lt _ (Nat.two_pow_pos _)

theorem rxPhase_inv {p : Ports} {s t : State} (h : s.Inv) (hrun : s.running = true)
    (hrx : rxPhase p s = .next t) : t.Inv ∧ t.running = true := by
  have hframe : CommitFrame s t := rxPhase_frame hrx
  have hok : ReceiverOk s.cfg t := by
    unfold rxPhase at hrx
    split at hrx
    · rw [execAll_singleton] at hrx
      cases hv : s.cfg.verify with
      | false =>
        cases (exec_of_production (i := .rxreset) (W := 0) hv (.inr (.inr rfl))).symm.trans hrx
        exact ⟨h.rx, h.queue⟩
      | true =>
        cases (exec_rxreset hv).symm.trans hrx
        exact ⟨rxOk_clear _, h.queue⟩
    · rw [execAll_evInstrs] at hrx
      split at hrx
      · exact exec_eventInstr_receiverOk h (evtTs_lt _ _) hrx
      · cases hrx
        exact ⟨h.rx, h.queue⟩
  rw [CommitFrame] at hframe
  rw [hframe]
  exact ⟨inv_of_running h hrun rfl h.cyc_lt h.tx hok.1 hok.2, hrun⟩

/-- A clock cycle keeps the invariant, whatever the ports carry. -/
theorem cycle_inv {p : Ports} {s t : State} (h : s.Inv) (hcycle : cycle p s = .next t) : t.Inv := by
  cases hpor : p.por with
  | true =>
    rw [cycle_por hpor] at hcycle
    cases hcycle
    exact powerOn_inv (begin_inv h)
  | false =>
    obtain ⟨r, x, y, hread, htx, hrx, rfl⟩ := (cycle_eq_next hpor).1 hcycle
    obtain ⟨hinv, hrun⟩ := readPhase_inv (begin_inv h) rfl hread
    cases (txPhase_eq_txStep p r).symm.trans htx
    obtain ⟨hinv, hrun⟩ := txStep_inv p.txreq hinv hrun
    obtain ⟨hinv, hrun⟩ := rxPhase_inv hinv hrun hrx
    exact tick_inv hinv hrun

/-! ### Going on -/

theorem readPhase_goesOn {p : Ports} {s : State} (h : s.Inv) : ∃ t, readPhase p s = .next t := by
  cases hr : p.rxRead with
  | false => exact ⟨s, readPhase_of_not_rxRead hr s⟩
  | true =>
    cases hv : s.cfg.verify with
    | false => exact ⟨s, readPhase_of_production hv⟩
    | true =>
      rw [readPhase_eq_pop hr hv]
      rcases s.pop_cases with ⟨_, e⟩ | ⟨_, _, e⟩ | ⟨_, hge, _⟩
      · exact ⟨_, e⟩
      · exact ⟨_, e⟩
      · exact absurd h.queue.head_lt (Nat.not_lt.2 hge)

theorem timed_goesOn {s : State} {ts : Nat} {pos : BitVec 4} {k : State → Result}
    (hk : ∃ t, k (s.stamp ts) = .next t) : ∃ t, s.timed ts pos k = .next t := by
  rcases s.timed_cases ts pos k with ⟨_, e⟩ | ⟨_, e⟩
  · rwa [e]
  · exact ⟨_, e⟩

theorem commit_goesOn {s : State} (h : s.queue.head < s.cfg.queueCapacity) : ∃ t, s.commit = .next t := by
  obtain ⟨u, hu⟩ := s.push_goesOn (decoded s.cfg.bitOrder s.cfg.bits s.rx.acc) h
  exact ⟨_, State.commit_eq_next.2 ⟨u, hu, rfl⟩⟩

theorem badStop_goesOn {s : State} (h : s.queue.head < s.cfg.queueCapacity) : ∃ t, s.badStop = .next t := by
  cases hp : s.cfg.stop0Policy with
  | dropSilently => exact ⟨_, State.badStop_of_dropSilently hp⟩
  | commitAnyway => exact State.badStop_of_commitAnyway hp ▸ commit_goesOn h
  | framingFault => exact ⟨_, State.badStop_of_framingFault hp⟩

/-- An event goes on wherever the queue's head is one of its indexes. -/
theorem exec_eventInstr_goesOn {s : State} (h : s.queue.head < s.cfg.queueCapacity) (l : Level) (ts : Nat) :
    ∃ t, exec (eventInstr s.rx.state l ts) s = .next t := by
  cases hv : s.cfg.verify with
  | false => exact ⟨s, exec_of_production (W := 0) hv (.inl (by rw [encode_eventInstr]))⟩
  | true =>
    cases hst : s.rx.state with
    | idle =>
      cases l with
      | true => exact ⟨s, rfl⟩
      | false => exact ⟨_, exec_evIdle0 hv hst ts⟩
    | inWord =>
      rw [eventInstr, exec_evInword hv hst]
      exact timed_goesOn ⟨_, rfl⟩
    | parityBit =>
      rw [eventInstr, exec_evParity hv hst]
      exact timed_goesOn ⟨_, rfl⟩
    | stopBit =>
      cases l with
      | true =>
        rw [eventInstr, if_pos rfl, exec_evStop1_eq_timed hv hst]
        exact timed_goesOn (commit_goesOn h)
      | false =>
        rw [eventInstr, if_neg Bool.false_ne_true, exec_evStop0_eq_timed hv hst]
        exact timed_goesOn (badStop_goesOn h)
    | fault => exact ⟨s, rfl⟩

theorem rxPhase_goesOn {p : Ports} {s : State} (h : s.queue.head < s.cfg.queueCapacity) :
    ∃ t, rxPhase p s = .next t := by
  cases hv : s.cfg.verify with
  | false => exact ⟨s, rxPhase_of_production hv⟩
  | true =>
    cases hr : p.rxReset with
    | true => exact ⟨_, rxPhase_of_rxReset hr hv⟩
    | false =>
      rw [rxPhase, if_neg (Bool.eq_false_iff.1 hr), execAll_evInstrs]
      split
      · exact exec_eventInstr_goesOn h _ _
      · exact ⟨s, rfl⟩

theorem cycle_goesOn {s : State} (h : s.Inv) (p : Ports) : ∃ t, cycle p s = .next t := by
  cases hpor : p.por with
  | true => exact ⟨_, cycle_por hpor s⟩
  | false =>
    obtain ⟨r, hread⟩ := readPhase_goesOn (p := p) (begin_inv h)
    obtain ⟨hinv, hrun⟩ := readPhase_inv (begin_inv h) rfl hread
    obtain ⟨hinv, hrun⟩ := txStep_inv p.txreq hinv hrun
    obtain ⟨y, hrx⟩ := rxPhase_goesOn (p := p) hinv.queue.head_lt
    exact ⟨_, (cycle_eq_next hpor).2 ⟨r, _, y, hread, txPhase_eq_txStep p r, hrx, rfl⟩⟩

end Sys2Proof.Machine
end

section
/-! SUPPORT. A step that runs an encoded instruction off the ports (30_encoding R73, log 1), and the invariant over
it. -/

namespace Sys2Proof.Machine

/-- What an instruction off the ports may do to the configuration: nothing on a running instance, and never make a
valid one invalid. -/
def Reconfigures (running : Bool) (c d : Cfg) : Prop :=
  (running = true → d = c) ∧ (c.valid = true → d.valid = true) ∧ d.tsWidth = c.tsWidth

theorem reconfigures_refl (running : Bool) (c : Cfg) : Reconfigures running c c := ⟨fun _ => rfl, id, rfl⟩

theorem execCpb_next {f b : Nat} {s t : State} (h : execCpb f b s = .next t) :
    t = { s with cfg := t.cfg } ∧ Reconfigures s.running s.cfg t.cfg := by
  unfold execCpb at h
  split_ifs at h with hrun hcal <;> cases h
  · exact ⟨rfl, reconfigures_refl _ _⟩
  · refine ⟨rfl, fun hr => absurd hr hrun, fun hvalid => ?_, rfl⟩
    obtain ⟨hbits, htable, -, -, hcapacity⟩ := Cfg.valid_eq_true.1 hvalid
    exact Cfg.valid_eq_true.2 ⟨hbits, htable, hcal, rfl, hcapacity⟩

theorem execFmtCfgw_next {p : BitVec 2} {o : BitVec 1} {b : BitVec 4} {s t : State}
    (h : execFmtCfgw p o b s = .next t) : t = { s with cfg := t.cfg } ∧ Reconfigures s.running s.cfg t.cfg := by
  unfold execFmtCfgw at h
  split_ifs at h with hrun hlegal <;> cases h
  · exact ⟨rfl, reconfigures_refl _ _⟩
  · refine ⟨rfl, fun hr => absurd hr hrun, fun hvalid => ?_, rfl⟩
    obtain ⟨-, htable, hcal, hcpb, hcapacity⟩ := Cfg.valid_eq_true.1 hvalid
    exact Cfg.valid_eq_true.2 ⟨(Bool.and_eq_true_iff.1 hlegal).2, htable, hcal, hcpb, hcapacity⟩

/-- An instruction off the ports writes the configuration, the input ports, the record and the lines only. -/
theorem exec_off_port_frame {i : Instr} {W : Nat} {s t : State} (hport : onPort (encode W i).fmt = false)
    (h : exec i s = .next t) :
    t = { s with cfg := t.cfg, inp := t.inp, obs := t.obs, host := t.host } ∧
      Reconfigures s.running s.cfg t.cfg := by
  cases i
  case cpb f b =>
    obtain ⟨hframe, hcfg⟩ := execCpb_next h
    exact ⟨by rw [hframe], hcfg⟩
  case fmtCfgw p o b =>
    obtain ⟨hframe, hcfg⟩ := execFmtCfgw_next h
    exact ⟨by rw [hframe], hcfg⟩
  case encode v p o b =>
    rw [exec_encode, execEncode] at h
    split_ifs at h
    cases h
    exact ⟨rfl, reconfigures_refl _ _⟩
  case por | tx | txRefused | txidle | txhold | txdata | txparity | txstop | txend | evIdle0 | evIdle1 | evInword |
      evParity | evStop1 | evStop0 | evFault | rxreset | rxread => cases hport
  all_goals
    cases h
    exact ⟨rfl, reconfigures_refl _ _⟩

theorem exec_off_port_inv {i : Instr} {W : Nat} {s t : State} (hport : onPort (encode W i).fmt = false)
    (h : s.Inv) (hexec : exec i s = .next t) : t.Inv := by
  obtain ⟨hframe, hkeep, hvalid, hwidth⟩ := exec_off_port_frame hport hexec
  have hcyc : s.cyc < t.cfg.tsMod := by
    rw [Cfg.tsMod, hwidth]
    exact h.cyc_lt
  cases hrun : s.running with
  | true =>
    rw [hframe]
    exact inv_of_running h hrun (hkeep hrun) h.cyc_lt h.tx h.rx h.queue
  | false =>
    obtain ⟨htx, hrx, hqueue⟩ := h.quiescent hrun
    rw [hframe]
    exact inv_of_reset_values (hvalid h.valid) hcyc htx hrx hqueue

/-! ### What a step takes -/

/-- A code that a step takes from the lines drives no port, and is one of the lines. -/
theorem fetch_eq_code {cfg : Cfg} {ready : Bool} {inp : Ports} {ls rest : List Line} {c : Code}
    (h : fetch cfg ready inp ls = .code c rest) :
    portsOf cfg.cpbWidth cfg.tsWidth inp c = none ∧ Line.code c ∈ ls := by
  fun_induction fetch cfg ready inp ls <;> simp_all

theorem portsOf_off_port {cpbWidth W : Nat} {inp : Ports} {c : Code} (h : onPort c.fmt = false) :
    portsOf cpbWidth W inp c = none := by
  obtain ⟨fmt, w, operands⟩ := c
  unfold portsOf
  split
  · rfl
  · cases fmt
    case reset | request | clock | event | resetStrobe | readStrobe => cases h
    all_goals rfl

theorem no_payload_of_on_port {fmt : Format} (h : onPort fmt = true) : fmt.hasPayload = false := by
  cases fmt
  case config | print | println => cases h
  all_goals rfl

/-- A code of a port's format that the decoder takes drives its port. -/
theorem portsOf_ne_none_of_decode {sel : Select} {inp : Ports} {c : Code} {i : Instr}
    (h : decode sel c = .ok i) (hport : onPort c.fmt = true) :
    portsOf sel.cpbWidth sel.tsWidth inp c ≠ none := by
  have hfits := lt_of_decode_ok h
  obtain ⟨fmt, w, operands⟩ := c
  have hpay : fmt.hasPayload = false := no_payload_of_on_port hport
  obtain ⟨rfl, hword⟩ := decodeWord_of_decode_ok hpay h
  rw [portsOf, if_neg (not_or.2 ⟨Nat.not_le.2 hfits, not_not.2 rfl⟩)]
  cases fmt
  case reset | resetStrobe | readStrobe => simp [(decodeStrobe_eq_ok.1 hword).1]
  case request | clock | event => simp
  all_goals cases hport

/-- All a step that goes on can do: a clock cycle, or an instruction off the ports, on a valid instance. -/
theorem step_eq_next {s t : State} (h : step s = .next t) :
    s.cfg.valid = true ∧ ∃ rest : List Line,
      (∃ p, cycle p { s with host := rest } = .next t) ∨
      (∃ i W, onPort (encode W i).fmt = false ∧ exec i { s with host := rest } = .next t) := by
  unfold step at h
  split_ifs at h with hvalid
  refine ⟨hvalid, ?_⟩
  cases hf : fetch s.cfg s.txReady s.inp s.host with
  | ports p rest =>
    rw [hf] at h
    exact ⟨rest, .inl ⟨p, h⟩⟩
  | code c rest =>
    rw [hf] at h
    cases hdec : decode s.select c with
    | error e => simp [hdec] at h
    | ok i =>
      simp only [hdec] at h
      refine ⟨rest, .inr ⟨i, s.cfg.tsWidth, ?_, h⟩⟩
      have henc : encode s.cfg.tsWidth i = c := (reads_of_decode hdec).1
      rw [henc, ← Bool.not_eq_true]
      exact fun hport => portsOf_ne_none_of_decode hdec hport (fetch_eq_code hf).1

/-- Every step keeps the invariant. -/
theorem step_inv {s t : State} (h : s.Inv) (hstep : step s = .next t) : t.Inv := by
  obtain ⟨-, rest, hdone⟩ := step_eq_next hstep
  have hinv : State.Inv { s with host := rest } := inv_of_same_block h rfl
  rcases hdone with ⟨p, hcycle⟩ | ⟨i, W, hport, hexec⟩
  · exact cycle_inv hinv hcycle
  · exact exec_off_port_inv hport hinv hexec

/-- R10: a cycle keeps the configuration and the pending lines; after it the instance runs and its ports are taken. -/
theorem cycle_outside {p : Ports} {s t : State} (h : cycle p s = .next t) :
    t.cfg = s.cfg ∧ t.running = true ∧ t.inp = Ports.quiet ∧ t.host = s.host := by
  cases hpor : p.por with
  | true =>
    rw [cycle_por hpor] at h
    cases h
    exact ⟨rfl, rfl, rfl, rfl⟩
  | false =>
    obtain ⟨r, x, y, hread, htx, hrx, rfl⟩ := (cycle_eq_next hpor).1 h
    cases (txPhase_eq_txStep p r).symm.trans htx
    have hframe : CommitFrame (r.txStep p.txreq) y := rxPhase_frame hrx
    rw [CommitFrame, r.txStep_frame p.txreq, readPhase_frame hread] at hframe
    rw [hframe]
    exact ⟨rfl, rfl, rfl, rfl⟩

end Sys2Proof.Machine
end

section
/-! The statements about the invariant and about every step (00_scope, 10_state). -/

namespace Sys2Proof.Machine

/-- Settles O49: a step is a cycle, whose phases keep the invariant one by one, or an instruction off the ports, which
can reach only the configuration and only before the first cycle. -/
theorem stepKeepsTheInvariant : Obligations.StepKeepsTheInvariant := fun _ _ => step_inv

/-- Settles O48: State.reset has the reset values and a valid configuration. -/
theorem resetMeetsTheInvariant : Obligations.ResetMeetsTheInvariant :=
  inv_of_reset_values (by decide) (tsMod_pos _) rfl rfl rfl

/-- Settles O50: the phases go on because the queue's head is one of its indexes; lines without a code end in a
cycle. -/
theorem theBlockNeverHalts : Obligations.TheBlockNeverHalts := by
  intro s h
  refine ⟨cycle_goesOn h, fun hlines => ?_⟩
  unfold step
  rw [if_pos h.valid]
  cases hf : fetch s.cfg s.txReady s.inp s.host with
  | ports p rest => exact cycle_goesOn (s := { s with host := rest }) (inv_of_same_block h rfl) p
  | code c rest => exact absurd (fetch_eq_code hf).2 (hlines c)

/-- Settles O37: a cycle keeps the configuration, and an instruction off the ports does so on a running instance. -/
theorem runningConfigurationIsFixed : Obligations.RunningConfigurationIsFixed := by
  intro s hrun
  refine ⟨fun f b => if_pos hrun, fun p o b => if_pos hrun, fun t hstep => ?_⟩
  obtain ⟨-, rest, ⟨p, hcycle⟩ | ⟨i, W, hport, hexec⟩⟩ := step_eq_next hstep
  · obtain ⟨hcfg, hrunning, -⟩ := cycle_outside hcycle
    exact ⟨hcfg, hrunning⟩
  · obtain ⟨hframe, hkeep, -⟩ := exec_off_port_frame hport hexec
    refine ⟨hkeep hrun, ?_⟩
    rw [hframe]
    exact hrun

/-- Settles O60: the exclusive section is held exactly while a frame is in flight. -/
theorem preemptionIsHeldOffDuringAFrame : Obligations.PreemptionIsHeldOffDuringAFrame := by
  intro s hostPe h
  have hexcl := h.tx.excl_iff
  rw [State.preemptible, State.txReady]
  by_cases hseg : s.tx.seg = .idle <;> simp_all

end Sys2Proof.Machine
end

section
/-! SUPPORT. A list of data levels, the byte it is folded into and the word it stands for (41_word_encoder R102 to R109,
43_reference_receiver R154, R162). -/

namespace Sys2Proof.Machine

/-- The data levels of a frame in time order (R102, R103). -/
def dataLevels (v : Byte) (n : Nat) (order : BitOrder) : List Level := (List.range n).map (dataLevel v n order)

/-- The parity levels of a frame: one where parity is configured (R104). -/
def parityLevels (v : Byte) (n : Nat) (pm : ParityMode) : List Level :=
  if pm = .none then [] else [parityLevel v n pm]

theorem frameLevels_eq (v : Byte) (n : Nat) (order : BitOrder) (pm : ParityMode) :
    frameLevels v n order pm = [false] ++ dataLevels v n order ++ parityLevels v n pm ++ [true] := rfl

@[simp] theorem length_dataLevels (v : Byte) (n : Nat) (order : BitOrder) : (dataLevels v n order).length = n := by
  simp [dataLevels]

@[simp] theorem length_parityLevels (v : Byte) (n : Nat) (pm : ParityMode) :
    (parityLevels v n pm).length = pm.segments := by
  cases pm <;> rfl

theorem getD_dataLevels {v : Byte} {n i : Nat} (order : BitOrder) (hi : i < n) :
    (dataLevels v n order).getD i false = dataLevel v n order i := by
  simp [dataLevels, hi]

/-- The accumulator after these data events (R154). -/
def foldLevels (order : BitOrder) (ls : List Level) : Byte := ls.foldl (foldRx order) 0

theorem foldLevels_append (order : BitOrder) (ls : List Level) (l : Level) :
    foldLevels order (ls ++ [l]) = foldRx order (foldLevels order ls) l := by
  simp [foldLevels]

theorem getLsbD_foldRx_lsb (acc : Byte) (l : Level) {i : Nat} (hi : i < 8) :
    (foldRx .lsb acc l).getLsbD i = if i = 7 then l else acc.getLsbD (i + 1) := by
  revert acc l i; decide +kernel

theorem getLsbD_foldRx_msb (acc : Byte) (l : Level) {i : Nat} (hi : i < 8) :
    (foldRx .msb acc l).getLsbD i = if i = 0 then l else acc.getLsbD (i - 1) := by
  revert acc l i; decide +kernel

theorem getD_concat_length (ls : List Level) (l : Level) : (ls ++ [l]).getD ls.length false = l := by simp

/-- Least significant bit first, the levels stand in the upper bits, the last one at the top. -/
theorem getLsbD_foldLevels_lsb {ls : List Level} (hlen : ls.length ≤ 8) {i : Nat} (hi : i < 8) :
    (foldLevels .lsb ls).getLsbD i = (decide (8 ≤ ls.length + i) && ls.getD (ls.length + i - 8) false) := by
  induction ls using List.reverseRecOn generalizing i with
  | nil => simp [foldLevels]
  | append_singleton ls l ih =>
    rw [List.length_append, List.length_singleton] at hlen ⊢
    rw [foldLevels_append, getLsbD_foldRx_lsb _ _ hi]
    by_cases htop : i = 7
    · rw [if_pos htop, show ls.length + 1 + i - 8 = ls.length by omega, getD_concat_length]
      simp [htop]
    · rw [if_neg htop, ih (by omega) (by omega), show ls.length + 1 + i = ls.length + (i + 1) by omega]
      by_cases hin : 8 ≤ ls.length + (i + 1)
      · rw [List.getD_append _ _ _ _ (by omega)]
      · simp [hin]

/-- Most significant bit first, the levels stand in the lower bits, the last one at the bottom. -/
theorem getLsbD_foldLevels_msb {ls : List Level} (hlen : ls.length ≤ 8) {i : Nat} (hi : i < 8) :
    (foldLevels .msb ls).getLsbD i = (decide (i < ls.length) && ls.getD (ls.length - 1 - i) false) := by
  induction ls using List.reverseRecOn generalizing i with
  | nil => simp [foldLevels]
  | append_singleton ls l ih =>
    rw [List.length_append, List.length_singleton] at hlen ⊢
    rw [foldLevels_append, getLsbD_foldRx_msb _ _ hi, Nat.add_sub_cancel]
    by_cases hlow : i = 0
    · rw [if_pos hlow, hlow, Nat.sub_zero, getD_concat_length]
      simp
    · rw [if_neg hlow, ih (by omega) (by omega)]
      by_cases hin : i - 1 < ls.length
      · rw [List.getD_append _ _ _ _ (by omega), show ls.length - 1 - (i - 1) = ls.length - i by omega]
        congr 2
        simp only [eq_iff_iff]
        omega
      · rw [decide_eq_false hin, decide_eq_false (by omega)]
        rfl

/-- The bit of the word that data level `i` carries (R102, R103). -/
def levelBit (order : BitOrder) (n i : Nat) : Nat :=
  match order with
  | .lsb => i
  | .msb => n - 1 - i

theorem levelBit_lt {n i : Nat} (order : BitOrder) (hi : i < n) : levelBit order n i < n := by
  cases order <;> (simp only [levelBit]; omega)

theorem levelBit_levelBit {n i : Nat} (order : BitOrder) (hi : i < n) :
    levelBit order n (levelBit order n i) = i := by
  cases order with
  | lsb => rfl
  | msb => simp only [levelBit]; omega

theorem dataLevel_eq_getLsbD (v : Byte) (n : Nat) (order : BitOrder) (i : Nat) :
    dataLevel v n order i = v.getLsbD (levelBit order n i) := by
  cases order <;> rfl

/-- R162: the realigned accumulator carries each level in its bit, and no other. -/
theorem getLsbD_decoded_foldLevels {ls : List Level} (hlen : ls.length ≤ 8) (order : BitOrder) {i : Nat}
    (hi : i < 8) :
    (decoded order ls.length (foldLevels order ls)).getLsbD i =
      (decide (i < ls.length) && ls.getD (levelBit order ls.length i) false) := by
  cases order with
  | lsb =>
    rw [decoded, BitVec.getLsbD_ushiftRight, levelBit]
    by_cases hin : i < ls.length
    · rw [getLsbD_foldLevels_lsb hlen (by omega), show ls.length + (8 - ls.length + i) - 8 = i by omega,
        decide_eq_true hin, decide_eq_true (by omega)]
    · rw [decide_eq_false hin, BitVec.getLsbD_of_ge _ _ (by omega), Bool.false_and]
  | msb => exact getLsbD_foldLevels_msb hlen hi

theorem getLsbD_shiftIn (v : Byte) (l : Level) {i : Nat} (hi : i < 8) :
    ((v <<< 1) ||| BitVec.ofNat 8 (levelNat l)).getLsbD i = if i = 0 then l else v.getLsbD (i - 1) :=
  getLsbD_foldRx_msb v l hi

/-- The value of a list of levels has each level in its bit, and no other. -/
theorem getLsbD_valueOfLevels {ls : List Level} (hlen : ls.length ≤ 8) (order : BitOrder) {i : Nat} (hi : i < 8) :
    (valueOfLevels order ls).getLsbD i =
      (decide (i < ls.length) && ls.getD (levelBit order ls.length i) false) := by
  cases order with
  | lsb =>
    rw [levelBit]
    induction ls generalizing i with
    | nil => simp [valueOfLevels]
    | cons l ls ih =>
      rw [List.length_cons] at hlen ⊢
      refine (getLsbD_shiftIn (valueOfLevels .lsb ls) l hi).trans ?_
      cases i with
      | zero => simp
      | succ i =>
        rw [if_neg (Nat.succ_ne_zero i), Nat.add_sub_cancel, ih (by omega) (by omega)]
        simp
  | msb => exact getLsbD_foldLevels_msb hlen hi

/-- R162: the realigned accumulator is the value whose levels were folded. -/
theorem decoded_foldLevels {ls : List Level} (hlen : ls.length ≤ 8) (order : BitOrder) :
    decoded order ls.length (foldLevels order ls) = valueOfLevels order ls :=
  BitVec.eq_of_getLsbD_eq fun i hi => by
    rw [getLsbD_decoded_foldLevels hlen order hi, getLsbD_valueOfLevels hlen order hi]

/-- The value of a word's levels is the word. -/
theorem valueOfLevels_dataLevels {n : Nat} (hn : n ≤ 8) (v : Byte) (order : BitOrder) :
    valueOfLevels order (dataLevels v n order) = wordOf n v := by
  refine BitVec.eq_of_getLsbD_eq fun i hi => ?_
  rw [getLsbD_valueOfLevels (by simpa using hn) order hi, getLsbD_wordOf, length_dataLevels]
  by_cases hin : i < n
  · rw [getD_dataLevels order (levelBit_lt order hin), dataLevel_eq_getLsbD, levelBit_levelBit order hin,
      decide_eq_true hin, Bool.true_and, Bool.and_true]
  · rw [decide_eq_false hin, Bool.false_and, Bool.and_false]

/-- The levels of a list's value are the list. -/
theorem dataLevels_valueOfLevels {ls : List Level} (hlen : ls.length ≤ 8) (order : BitOrder) :
    dataLevels (valueOfLevels order ls) ls.length order = ls := by
  refine List.ext_getElem (by simp) fun i hi hi' => ?_
  have hbit := levelBit_lt order hi'
  simp only [dataLevels, List.getElem_map, List.getElem_range]
  rw [dataLevel_eq_getLsbD, getLsbD_valueOfLevels hlen order (by omega), levelBit_levelBit order hi',
    decide_eq_true hbit, Bool.true_and, List.getD_eq_getElem _ _ hi']

/-! ### Parity -/

/-- Whether the ones among these levels are odd in number. -/
def oddOnes (ls : List Level) : Bool := decide (ls.count true % 2 = 1)

theorem oddOnes_append (ls ms : List Level) : oddOnes (ls ++ ms) = (oddOnes ls ^^ oddOnes ms) := by
  rw [oddOnes, oddOnes, oddOnes, List.count_append]
  rcases Nat.mod_two_eq_zero_or_one (ls.count true) with h | h <;>
    rcases Nat.mod_two_eq_zero_or_one (ms.count true) with h' | h' <;> simp [Nat.add_mod, h, h']

@[simp] theorem oddOnes_singleton (l : Level) : oddOnes [l] = l := by
  cases l <;> rfl

theorem oddOnes_reverse (ls : List Level) : oddOnes ls.reverse = oddOnes ls := by
  rw [oddOnes, oddOnes, List.count_reverse]

theorem foldl_xor_eq_oddOnes (ls : List Level) : ls.foldl (· ^^ ·) false = oddOnes ls := by
  induction ls using List.reverseRecOn with
  | nil => rfl
  | append_singleton ls l ih => rw [List.foldl_append, ih, oddOnes_append, oddOnes_singleton]; rfl

/-- A shifted-in level changes the parity by itself when the bit shifted out is 0. -/
theorem xorReduce_foldRx (order : BitOrder) (acc : Byte) (l : Level) (h : shiftOut order acc = false) :
    xorReduce (foldRx order acc l) = (xorReduce acc ^^ l) := by
  cases order <;> revert acc l <;> decide +kernel

/-- R155: the accumulator's parity is that of the levels folded in. -/
theorem xorReduce_foldLevels {ls : List Level} (hlen : ls.length ≤ 8) (order : BitOrder) :
    xorReduce (foldLevels order ls) = oddOnes ls := by
  induction ls using List.reverseRecOn with
  | nil => cases order <;> rfl
  | append_singleton ls l ih =>
    rw [List.length_append, List.length_singleton] at hlen
    have hroom : shiftOut order (foldLevels order ls) = false := by
      cases order with
      | lsb =>
        rw [shiftOut, getLsbD_foldLevels_lsb (by omega) (by omega), decide_eq_false (by omega), Bool.false_and]
      | msb =>
        rw [shiftOut, getLsbD_foldLevels_msb (by omega) (by omega), decide_eq_false (by omega), Bool.false_and]
    rw [foldLevels_append, xorReduce_foldRx _ _ _ hroom, ih (by omega), oddOnes_append, oddOnes_singleton]

/-- The two orders are each other's reverse. -/
theorem dataLevels_msb (v : Byte) (n : Nat) : dataLevels v n .msb = (dataLevels v n .lsb).reverse := by
  refine List.ext_getElem (by simp) fun i hi hi' => ?_
  simp [dataLevels, dataLevel]

theorem oddOnes_dataLevels (v : Byte) (n : Nat) (order : BitOrder) :
    oddOnes (dataLevels v n order) = oddOnes (dataLevels v n .msb) := by
  cases order
  · rw [dataLevels_msb, oddOnes_reverse]
  · rfl

/-- R104: the parity of the word is that of its data levels, in either order. -/
theorem xorReduce_wordOf {n : Nat} (hn : n ≤ 8) (v : Byte) (order : BitOrder) :
    xorReduce (wordOf n v) = oddOnes (dataLevels v n order) := by
  rw [oddOnes_dataLevels, ← valueOfLevels_dataLevels hn v .msb]
  exact xorReduce_foldLevels (by simpa using hn) .msb

theorem foldl_xor_range (v : Byte) (n : Nat) :
    (List.range n).foldl (fun e i => e ^^ v.getLsbD i) false = oddOnes (dataLevels v n .lsb) := by
  rw [← foldl_xor_eq_oddOnes, dataLevels, List.foldl_map]
  rfl

theorem BitOrder_ofCode_eq (o : BitVec 1) : BitOrder.ofCode o = if o.toNat = 0 then .lsb else .msb := by
  revert o; decide

theorem ParityMode_ofCode_eq (p : BitVec 2) :
    ParityMode.ofCode p = if p.toNat = 0 then .none else if p.toNat = 1 then .even else .odd := by
  revert p; decide

theorem parityLevel_eq {n : Nat} (hn : n ≤ 8) (v : Byte) (order : BitOrder) (pm : ParityMode) :
    parityLevel v n pm = (oddOnes (dataLevels v n order) ^^ decide (pm = .odd)) := by
  rw [parityLevel, xorReduce_wordOf hn v order]

/-! ### The frame formats (R62) -/

theorem length_levelsOf {n : Nat} (d : BitVec n) : (levelsOf d).length = n := by simp [levelsOf]

theorem parityLevels_congr {v v' : Byte} {n : Nat} {order : BitOrder} (hn : n ≤ 8) (pm : ParityMode)
    (h : dataLevels v n order = dataLevels v' n order) : parityLevels v n pm = parityLevels v' n pm := by
  rw [parityLevels, parityLevels, parityLevel_eq hn v order, parityLevel_eq hn v' order, h]

/-- A frame of an instance is these levels when its data and parity levels are. -/
theorem frameOf_eq_iff {c : Cfg} {v : Byte} {ds ps : List Level} (hlen : c.bits = ds.length) :
    frameOf c v = [false] ++ ds ++ ps ++ [true] ↔
      dataLevels v c.bits c.bitOrder = ds ∧ parityLevels v c.bits c.parityMode = ps := by
  rw [frameOf, frameLevels_eq]
  constructor
  · intro h
    have hinner := List.append_cancel_right h
    rw [List.append_assoc, List.append_assoc] at hinner
    exact List.append_inj (List.append_cancel_left hinner) (by simpa using hlen)
  · rintro ⟨hdata, hparity⟩
    rw [hdata, hparity]

theorem parityLevels_eq_toList {v : Byte} {n : Nat} {pm : ParityMode} {p : Option Level} :
    parityLevels v n pm = p.toList ↔ p = if pm = .none then none else some (parityLevel v n pm) := by
  rw [parityLevels]
  split_ifs <;> cases p <;> simp [eq_comm]

/-- Log 11: an instance emits the levels exactly when they are a frame of some value, and then of their own value. -/
theorem emits_iff {c : Cfg} {ds : List Level} {p : Option Level} (hlen : ds.length ≤ 8) :
    Cfg.emits c ds p = true ↔
      c.bits = ds.length ∧ frameOf c (valueOfLevels c.bitOrder ds) = [false] ++ ds ++ p.toList ++ [true] := by
  rw [Cfg.emits, Bool.and_eq_true, decide_eq_true_eq, decide_eq_true_eq]
  refine and_congr_right fun hbits => ?_
  have hdata : dataLevels (valueOfLevels c.bitOrder ds) c.bits c.bitOrder = ds := by
    rw [hbits]
    exact dataLevels_valueOfLevels hlen c.bitOrder
  rw [frameOf_eq_iff hbits, ← parityLevels_eq_toList, and_iff_right hdata]

/-- A value with these levels makes the levels' own value have them too, parity included. -/
theorem frameOf_valueOfLevels {c : Cfg} {ds ps : List Level} {v : Byte} (hbits : c.bits = ds.length)
    (hlen : ds.length ≤ 8) (h : frameOf c v = [false] ++ ds ++ ps ++ [true]) :
    frameOf c (valueOfLevels c.bitOrder ds) = [false] ++ ds ++ ps ++ [true] := by
  obtain ⟨hdata, hparity⟩ := (frameOf_eq_iff hbits).1 h
  have hvalue : dataLevels (valueOfLevels c.bitOrder ds) c.bits c.bitOrder = ds := by
    rw [hbits]
    exact dataLevels_valueOfLevels hlen c.bitOrder
  refine (frameOf_eq_iff hbits).2 ⟨hvalue, ?_⟩
  rw [← hparity]
  exact parityLevels_congr (hbits.trans_le hlen) _ (hvalue.trans hdata.symm)

/-- R62, log 11: what an operation that prepends a frame's lines puts on the line. -/
theorem frameGoesOnTheLine_of_exec {i : Instr} {ds : List Level} {p : Option Level} (hlen : ds.length ≤ 8)
    (hexec : ∀ s : State, exec i s = .next (s.prepend (s.frameLines ds p))) : FrameGoesOnTheLine i ds p := by
  intro s _ levels
  rw [hexec, State.frameLines]
  refine ⟨?_, fun hno => ?_⟩
  · rintro ⟨v, hbits, hframe⟩
    have hown := frameOf_valueOfLevels hbits hlen hframe
    rw [if_pos ((emits_iff hlen).2 ⟨hbits, hown⟩)]
    exact ⟨_, hown, rfl⟩
  · rw [if_neg fun hemits => hno ⟨_, (emits_iff hlen).1 hemits⟩, benchLines_eq_flatten]
    rfl

end Sys2Proof.Machine
end

section
/-! The statements about frames (30_encoding R62, 41_word_encoder R100 to R109). -/

namespace Sys2Proof.Machine

/-- Settles O40: the parity level makes the number of ones even or odd, since it is the parity of the data levels in
either order. -/
theorem frameLengthAndParityLaws : Obligations.FrameLengthAndParityLaws := by
  intro v n o pm hn ls
  have hdata : ls.tail.dropLast = dataLevels v n o ++ parityLevels v n pm := by
    simp [ls, frameLevels_eq]
  have hones : pm ≠ .none → oddOnes ls.tail.dropLast = decide (pm = .odd) := by
    intro hpm
    rw [hdata, parityLevels, if_neg hpm, oddOnes_append, oddOnes_singleton, parityLevel_eq hn v o, ← Bool.xor_assoc,
      Bool.xor_self, Bool.false_xor]
  refine ⟨?_, ?_, ?_⟩
  · simp only [ls, frameLevels_eq]
    cases pm <;> simp [ParityMode.segments] <;> omega
  · rintro rfl
    simpa [oddOnes] using hones nofun
  · rintro rfl
    simpa [oddOnes] using hones nofun

/-- Settles O46: each format prepends its frame's lines, and a frame has at most 8 data levels. -/
theorem frameFormatsGoOnTheLine : Obligations.FrameFormatsGoOnTheLine := by
  have hlen : ∀ {n : Nat}, n ≤ 8 → ∀ d : BitVec n, (levelsOf d).length ≤ 8 := fun hn d =>
    (length_levelsOf d).trans_le hn
  refine ⟨?_, ?_, ?_, ?_, ?_, ?_, ?_, ?_, ?_, ?_, ?_, ?_, ?_, ?_, ?_, ?_⟩ <;> intros <;>
    exact frameGoesOnTheLine_of_exec (hlen (by decide) _) fun _ => rfl

/-- Settles O39: the operands are the codes of the order and the parity mode, and the parity level is the fold of the
data bits. -/
theorem encodeGivesTheFrame : Obligations.EncodeGivesTheFrame := by
  intro v p o b s n data e parity
  refine ⟨fun hp hn1 hn8 => ?_, fun hill => ?_⟩
  · have hlegal : (legalParityCode p && legalDataBits b) = true := by
      rw [Bool.and_eq_true, legalParityCode_eq_true, legalDataBits_eq_true]
      exact ⟨hp, hn1, hn8⟩
    have hdata : dataLevels v n (BitOrder.ofCode o) = data := by
      rw [BitOrder_ofCode_eq]
      by_cases ho : o.toNat = 0 <;> simp only [data, ho, if_true, if_false] <;> rfl
    have hparity : parityLevels v n (ParityMode.ofCode p) = parity := by
      have he : e = oddOnes (dataLevels v n .lsb) := foldl_xor_range v n
      simp only [parity, he, ParityMode_ofCode_eq, parityLevels, parityLevel_eq hn8 v .lsb]
      split_ifs <;> simp_all
    rw [exec_encode, execEncode, if_pos hlegal, frameLevels_eq, hdata, hparity]
  · have hlegal : ¬ (legalParityCode p && legalDataBits b) = true := by
      rw [Bool.and_eq_true, legalParityCode_eq_true, legalDataBits_eq_true]
      change p.toNat = 3 ∨ b.toNat = 0 ∨ 8 < b.toNat at hill
      omega
    rw [exec_encode, execEncode, if_neg hlegal]

end Sys2Proof.Machine
end

section
/-! SUPPORT. RX over the events of a frame (43_reference_receiver section 6, 42_transmission_driver R130): its registers
after each event that comes on time, and what the next event makes of them. -/

namespace Sys2Proof.Machine

/-! ### The events of a frame -/

theorem deliver_cons (e : Event) (es : List Event) (s : State) :
    deliver (e :: es) s =
      andThen (exec (eventInstr s.rx.state e.level (e.ts % s.cfg.tsMod)) s) (deliver es) := by
  rw [deliver, execAll_evInstrs, evtValid_packEvt, evtLevel_packEvt, evtTs_packEvt]
  rfl

theorem deliver_cons_of_lt {s : State} {ts : Nat} (hts : ts < s.cfg.tsMod) (l : Level) (es : List Event) :
    deliver (⟨l, ts⟩ :: es) s = andThen (exec (eventInstr s.rx.state l ts) s) (deliver es) := by
  rw [deliver_cons, Nat.mod_eq_of_lt hts]

theorem segments_eq (c : Cfg) : c.segments = c.bits + c.parityMode.segments + 1 + 1 := by
  rw [Cfg.segments]
  omega

theorem length_frameOf (c : Cfg) (v : Byte) : (frameOf c v).length = c.segments := by
  rw [frameOf, frameLevels_eq, Cfg.segments]
  simp
  omega

theorem frameOf_zero (c : Cfg) (v : Byte) : (frameOf c v)[0]? = some false := rfl

theorem frameOf_succ (c : Cfg) (v : Byte) (m : Nat) :
    (frameOf c v)[m + 1]? =
      (dataLevels v c.bits c.bitOrder ++ (parityLevels v c.bits c.parityMode ++ [true]))[m]? := by
  rw [frameOf, frameLevels_eq, List.append_assoc, List.append_assoc]
  rfl

theorem frameOf_data {c : Cfg} {m : Nat} (v : Byte) (hm : m < c.bits) :
    (frameOf c v)[m + 1]? = some (dataLevel v c.bits c.bitOrder m) := by
  rw [frameOf_succ, List.getElem?_append_left (by simpa using hm)]
  simp [dataLevels, hm]

theorem frameOf_parity {c : Cfg} (v : Byte) (hpar : c.parityMode ≠ .none) :
    (frameOf c v)[c.bits + 1]? = some (parityLevel v c.bits c.parityMode) := by
  rw [frameOf_succ, List.getElem?_append_right (by simp)]
  simp [parityLevels, hpar]

theorem frameOf_stop (c : Cfg) (v : Byte) :
    (frameOf c v)[c.bits + c.parityMode.segments + 1]? = some true := by
  rw [frameOf_succ, List.getElem?_append_right (by simp), length_dataLevels, Nat.add_sub_cancel_left,
    List.getElem?_append_right (by simp), length_parityLevels, Nat.sub_self]
  rfl

theorem segments_eq_one {pm : ParityMode} (h : pm ≠ .none) : pm.segments = 1 := by
  cases pm
  · exact absurd rfl h
  · rfl
  · rfl

theorem segments_le_one (pm : ParityMode) : pm.segments ≤ 1 := by cases pm <;> decide

theorem frameEvents_getElem? (c : Cfg) (v : Byte) (t0 k : Nat) :
    (frameEvents c v t0)[k]? = (frameOf c v)[k]?.map fun l => ⟨l, (t0 + k * c.cpb) % c.tsMod⟩ := by
  rw [frameEvents, List.getElem?_mapIdx]

theorem mod_tsMod_lt (c : Cfg) (x : Nat) : x % c.tsMod < c.tsMod := Nat.mod_lt _ (tsMod_pos c)

/-! ### The timing check -/

/-- R153: an event is on time exactly when it comes CPB after the one before, modulo the width. -/
theorem State.elapsed_eq_cpb_iff {s : State} {ts : Nat} (hcpb : s.cfg.cpb < s.cfg.tsMod) (hts : ts < s.cfg.tsMod) :
    s.elapsed ts = s.cfg.cpb ↔ ts = (s.rx.prevTs + s.cfg.cpb) % s.cfg.tsMod := by
  have hq : s.rx.prevTs % s.cfg.tsMod < s.cfg.tsMod := Nat.mod_lt _ (tsMod_pos _)
  rw [State.elapsed, ← Nat.mod_add_mod]
  generalize s.rx.prevTs % s.cfg.tsMod = q at hq ⊢
  generalize s.cfg.tsMod = M at *
  generalize s.cfg.cpb = d at *
  have hleft : (ts + M - q) % M = if q ≤ ts then ts - q else ts + M - q := by
    split_ifs with h
    · rw [show ts + M - q = ts - q + M by omega, Nat.add_mod_right, Nat.mod_eq_of_lt (by omega)]
    · exact Nat.mod_eq_of_lt (by omega)
  have hright : (q + d) % M = if q + d < M then q + d else q + d - M := by
    split_ifs with h
    · exact Nat.mod_eq_of_lt h
    · rw [Nat.mod_eq_sub_mod (by omega), Nat.mod_eq_of_lt (by omega)]
  rw [hleft, hright]
  split_ifs <;> omega

/-! ### The receiver in the middle of a frame -/

/-- RX's registers after the start event and `m` more events of the frame of `v`, the last at `ts`. -/
def heardRx (c : Cfg) (v : Byte) (m ts : Nat) (d : Diag) : Rx where
  state := if m < c.bits then .inWord
    else if m < c.bits + c.parityMode.segments then .parityBit else .stopBit
  acc := foldLevels c.bitOrder ((dataLevels v c.bits c.bitOrder).take m)
  rem := BitVec.ofNat 4 (c.bits - m)
  prevTs := ts
  diag := d

/-- A state whose receiver has heard this much of the frame of `v`. -/
def State.hears (v : Byte) (m ts : Nat) (s : State) : State := { s with rx := heardRx s.cfg v m ts s.rx.diag }

section
variable {s : State} {v : Byte} {m t ts : Nat} {d : Diag}

/-- R151: the start event. -/
theorem exec_start (hvalid : s.cfg.valid = true) (hv : s.cfg.verify = true) (hst : s.rx.state = .idle) (v : Byte)
    (ts : Nat) :
    exec (eventInstr s.rx.state false ts) s = .next (s.hears v 0 ts) := by
  have hbits : 0 < s.cfg.bits := (bits_bounds_of_valid hvalid).1
  have hrem : BitVec.ofNat 4 s.cfg.bits = s.cfg.dataBits := BitVec.ofNat_toNat ..
  rw [hst]
  refine (exec_evIdle0 hv hst ts).trans (congrArg Host.Outcome.next ?_)
  simp [State.startFrame, State.hears, heardRx, hbits, foldLevels, hrem]

theorem ofNat_pred {n : Nat} (h : 0 < n) : BitVec.ofNat 4 n - 1 = BitVec.ofNat 4 (n - 1) := by
  obtain ⟨k, rfl⟩ := Nat.exists_eq_add_one.2 h
  rw [Nat.add_sub_cancel, BitVec.ofNat_add]
  exact BitVec.add_sub_cancel _ _

theorem ofNat_eq_zero_iff {n : Nat} (h : n < 16) : BitVec.ofNat 4 n = 0 ↔ n = 0 := by
  rw [← BitVec.toNat_inj]
  simp [Nat.mod_eq_of_lt h]

theorem take_dataLevels_succ {n : Nat} (v : Byte) (order : BitOrder) (hm : m < n) :
    (dataLevels v n order).take (m + 1) = (dataLevels v n order).take m ++ [dataLevel v n order m] := by
  rw [List.take_add_one]
  simp [dataLevels, hm]

/-- R154: where the last data event leads, and the ones before it. -/
theorem afterData_state_eq (hm : m < s.cfg.bits) (hbits : s.cfg.bits ≤ 8) :
    (if BitVec.ofNat 4 (s.cfg.bits - (m + 1)) = 0 then
        (if s.cfg.parityMode = .none then .stopBit else .parityBit) else .inWord) =
      (heardRx s.cfg v (m + 1) ts d).state := by
  simp only [heardRx, ofNat_eq_zero_iff (show s.cfg.bits - (m + 1) < 16 by omega)]
  by_cases hlast : m + 1 < s.cfg.bits
  · rw [if_pos hlast, if_neg (by omega)]
  · rw [if_neg hlast, if_pos (by omega)]
    cases s.cfg.parityMode <;> simp [ParityMode.segments] <;> omega

/-- R154: a data event on time. -/
theorem exec_data (hv : s.cfg.verify = true) (hbits : s.cfg.bits ≤ 8) (hrx : s.rx = heardRx s.cfg v m t d)
    (hm : m < s.cfg.bits) (htime : s.elapsed ts = s.cfg.cpb) :
    exec (eventInstr s.rx.state (dataLevel v s.cfg.bits s.cfg.bitOrder m) ts) s =
      .next { s with rx := heardRx s.cfg v (m + 1) ts d } := by
  have hst : s.rx.state = .inWord := by simp [hrx, heardRx, hm]
  have hrem : s.rx.rem - 1 = BitVec.ofNat 4 (s.cfg.bits - (m + 1)) := by
    rw [hrx]
    exact ofNat_pred (by omega)
  have hacc : foldRx s.cfg.bitOrder s.rx.acc (dataLevel v s.cfg.bits s.cfg.bitOrder m) =
      (heardRx s.cfg v (m + 1) ts d).acc := by
    rw [hrx, heardRx, heardRx, take_dataLevels_succ v _ hm, foldLevels_append]
  have hnext := afterData_state_eq (s := s) (v := v) (ts := ts) (d := d) hm hbits
  rw [← hrem, ← hst] at hnext
  have hdiag : s.rx.diag = d := by rw [hrx]; rfl
  have hheard : Rx.mk
      (if s.rx.rem - 1 = 0 then (if s.cfg.parityMode = .none then .stopBit else .parityBit) else s.rx.state)
      (foldRx s.cfg.bitOrder s.rx.acc (dataLevel v s.cfg.bits s.cfg.bitOrder m)) (s.rx.rem - 1) ts s.rx.diag =
      heardRx s.cfg v (m + 1) ts d := by
    rw [hnext, hacc, hrem, hdiag]
    rfl
  rw [hst, eventInstr, exec_evInword hv hst, State.timed_of_onTime (s := s.foldBit _) htime rfl, State.afterData_eq]
  exact congrArg (fun r => (Host.Outcome.next { s with rx := r } : Result)) hheard

/-- R155: the parity level that RX requires of a word's accumulator is the frame's (R104). -/
theorem expectedParity_heard (hbits : s.cfg.bits ≤ 8) (hpar : s.cfg.parityMode ≠ .none)
    (hacc : s.rx.acc = foldLevels s.cfg.bitOrder (dataLevels v s.cfg.bits s.cfg.bitOrder)) :
    s.expectedParity = parityLevel v s.cfg.bits s.cfg.parityMode := by
  rw [State.expectedParity, hacc, xorReduce_foldLevels (by simpa using hbits), parityLevel_eq hbits v s.cfg.bitOrder]
  cases hmode : s.cfg.parityMode
  · exact absurd hmode hpar
  · simp
  · simp

theorem heardRx_acc_of_le (hm : s.cfg.bits ≤ m) :
    (heardRx s.cfg v m t d).acc = foldLevels s.cfg.bitOrder (dataLevels v s.cfg.bits s.cfg.bitOrder) := by
  rw [heardRx, List.take_of_length_le (by simpa using hm)]

theorem heardRx_state_parity (hpar : s.cfg.parityMode ≠ .none) :
    (heardRx s.cfg v s.cfg.bits t d).state = .parityBit := by
  simp [heardRx, segments_eq_one hpar]

theorem heardRx_state_stop : (heardRx s.cfg v (s.cfg.bits + s.cfg.parityMode.segments) t d).state = .stopBit := by
  simp [heardRx]

/-- R155: a parity event on time that is the frame's own leads to StopBit. -/
theorem exec_parity (hv : s.cfg.verify = true) (hbits : s.cfg.bits ≤ 8) (hpar : s.cfg.parityMode ≠ .none)
    (hrx : s.rx = heardRx s.cfg v s.cfg.bits t d) (htime : s.elapsed ts = s.cfg.cpb) :
    exec (eventInstr s.rx.state (parityLevel v s.cfg.bits s.cfg.parityMode) ts) s =
      .next { s with rx := heardRx s.cfg v (s.cfg.bits + 1) ts d } := by
  have hst : s.rx.state = .parityBit := by rw [hrx, heardRx_state_parity hpar]
  have hwant : (s.stamp ts).expectedParity = parityLevel v s.cfg.bits s.cfg.parityMode :=
    expectedParity_heard (s := s.stamp ts) hbits hpar (by
      change s.rx.acc = _
      rw [hrx, heardRx_acc_of_le le_rfl]
      rfl)
  rw [hst, eventInstr, exec_evParity hv hst, State.timed_of_onTime htime rfl, State.checkParity, hwant, if_pos rfl]
  refine congrArg Host.Outcome.next ?_
  simp [State.toRx, State.stamp, heardRx, hrx, segments_eq_one hpar, List.take_of_length_le]

/-- R155, R202: an inverted parity event on time is a ParityMismatch. -/
theorem exec_parity_inverted (hv : s.cfg.verify = true) (hbits : s.cfg.bits ≤ 8) (hpar : s.cfg.parityMode ≠ .none)
    (hrx : s.rx = heardRx s.cfg v s.cfg.bits t d) (htime : s.elapsed ts = s.cfg.cpb) :
    ∃ u, exec (eventInstr s.rx.state (!parityLevel v s.cfg.bits s.cfg.parityMode) ts) s = .next u ∧
      RxFrame s u ∧ u.rx.state = .fault ∧
      u.rx.diag = ⟨.parityMismatch, levelNat (parityLevel v s.cfg.bits s.cfg.parityMode),
        levelNat (!parityLevel v s.cfg.bits s.cfg.parityMode), s.cfg.dataBits⟩ := by
  have hst : s.rx.state = .parityBit := by rw [hrx, heardRx_state_parity hpar]
  have hwant : (s.stamp ts).expectedParity = parityLevel v s.cfg.bits s.cfg.parityMode :=
    expectedParity_heard (s := s.stamp ts) hbits hpar (by
      change s.rx.acc = _
      rw [hrx, heardRx_acc_of_le le_rfl]
      rfl)
  rw [hst, eventInstr, exec_evParity hv hst, State.timed_of_onTime htime rfl, State.checkParity, hwant,
    if_neg (by simp)]
  exact ⟨_, rfl, rfl, rfl, rfl⟩

/-- The next event of the frame, on time, takes RX one event further, up to the stop event. -/
theorem exec_heard_next (hvalid : s.cfg.valid = true) (hv : s.cfg.verify = true)
    (hrx : s.rx = heardRx s.cfg v m t d) (hm : m < s.cfg.bits + s.cfg.parityMode.segments) {l : Level}
    (hl : (frameOf s.cfg v)[m + 1]? = some l) (htime : s.elapsed ts = s.cfg.cpb) :
    exec (eventInstr s.rx.state l ts) s = .next { s with rx := heardRx s.cfg v (m + 1) ts d } := by
  have hbits := (bits_bounds_of_valid hvalid).2
  by_cases hdata : m < s.cfg.bits
  · obtain rfl : dataLevel v s.cfg.bits s.cfg.bitOrder m = l := Option.some.inj ((frameOf_data v hdata).symm.trans hl)
    exact exec_data hv hbits hrx hdata htime
  · have hone := segments_le_one s.cfg.parityMode
    have hpar : s.cfg.parityMode ≠ .none := fun hnone => by rw [hnone, ParityMode.segments] at hm; omega
    obtain rfl : m = s.cfg.bits := by omega
    obtain rfl : parityLevel v s.cfg.bits s.cfg.parityMode = l :=
      Option.some.inj ((frameOf_parity v hpar).symm.trans hl)
    exact exec_parity hv hbits hpar hrx htime

/-- R153: an event after the start event and `m` more is timed first, at position `m`. -/
theorem exec_heard_timed (hvalid : s.cfg.valid = true) (hv : s.cfg.verify = true)
    (hrx : s.rx = heardRx s.cfg v m t d) (hm : m ≤ s.cfg.bits + s.cfg.parityMode.segments) (l : Level) (ts : Nat) :
    ∃ u pos k, exec (eventInstr s.rx.state l ts) s = u.timed ts pos k ∧ RxFrame s u ∧
      u.elapsed ts = s.elapsed ts ∧ pos.toNat = m := by
  have hbits : s.cfg.dataBits.toNat ≤ 8 := (bits_bounds_of_valid hvalid).2
  have hone := segments_le_one s.cfg.parityMode
  have hcount : s.cfg.bits = s.cfg.dataBits.toNat := rfl
  by_cases hdata : m < s.cfg.bits
  · have hst : s.rx.state = .inWord := by simp [hrx, heardRx, hdata]
    have hrem : s.rx.rem.toNat = s.cfg.dataBits.toNat - m := by
      rw [hrx]
      exact Nat.mod_eq_of_lt ((Nat.sub_le _ _).trans_lt (by omega))
    refine ⟨s.foldBit l, _, _, by rw [hst, eventInstr, exec_evInword hv hst], rfl, rfl, ?_⟩
    rw [BitVec.toNat_sub_of_le (by rw [BitVec.le_def]; omega), hrem]
    omega
  by_cases hpar : m < s.cfg.bits + s.cfg.parityMode.segments
  · have hst : s.rx.state = .parityBit := by simp [hrx, heardRx, hdata, hpar]
    refine ⟨s, _, _, by rw [hst, eventInstr, exec_evParity hv hst], rfl, rfl, ?_⟩
    omega
  · have hst : s.rx.state = .stopBit := by simp [hrx, heardRx, hdata, hpar]
    have hpos : s.stopPosition.toNat = m := by
      rw [s.stopPosition_eq, BitVec.toNat_add]
      cases hmode : s.cfg.parityMode <;> simp [hmode, ParityMode.segments] at hm hpar ⊢ <;> omega
    cases l
    · exact ⟨s, _, _, by rw [hst, eventInstr, if_neg Bool.false_ne_true, exec_evStop0_eq_timed hv hst], rfl, rfl, hpos⟩
    · exact ⟨s, _, _, by rw [hst, eventInstr, if_pos rfl, exec_evStop1_eq_timed hv hst], rfl, rfl, hpos⟩

/-- R201: a mistimed event after the start event and `m` more is a TimingGlitch at position `m`. -/
theorem exec_heard_mistimed (hvalid : s.cfg.valid = true) (hv : s.cfg.verify = true)
    (hrx : s.rx = heardRx s.cfg v m t d) (hm : m ≤ s.cfg.bits + s.cfg.parityMode.segments)
    (htime : s.elapsed ts ≠ s.cfg.cpb) (l : Level) :
    ∃ u pos, exec (eventInstr s.rx.state l ts) s = .next u ∧ RxFrame s u ∧ u.rx.state = .fault ∧
      u.rx.diag = ⟨.timingGlitch, s.cfg.cpb, s.elapsed ts, pos⟩ ∧ pos.toNat = m := by
  obtain ⟨w, pos, k, hexec, hframe, helapsed, hpos⟩ := exec_heard_timed hvalid hv hrx hm l ts
  obtain ⟨u, hu, hrest⟩ := State.timed_glitch hframe helapsed htime pos k
  exact ⟨u, pos, hexec.trans hu, hrest.1, hrest.2.1, hrest.2.2, hpos⟩

/-- R156, R162: the stop event on time commits the word that was sent. -/
theorem exec_heard_stop (hvalid : s.cfg.valid = true) (hv : s.cfg.verify = true)
    (hrx : s.rx = heardRx s.cfg v (s.cfg.bits + s.cfg.parityMode.segments) t d) (htime : s.elapsed ts = s.cfg.cpb)
    (hroom : s.queue.count < s.cfg.queueCapacity) :
    ∃ u, exec (eventInstr s.rx.state true ts) s = .next u ∧ CommitFrame s u ∧ u.rx.state = .idle ∧ u.rx.diag = d ∧
      u.queue = { s.queue with
        mem := s.queue.mem.write s.tail (wordOf s.cfg.bits v), count := s.queue.count + 1 } := by
  have hbits := (bits_bounds_of_valid hvalid).2
  have hst : s.rx.state = .stopBit := by rw [hrx, heardRx_state_stop]
  have hword : decoded s.cfg.bitOrder s.cfg.bits s.rx.acc = wordOf s.cfg.bits v := by
    have hfold :=
      decoded_foldLevels (ls := dataLevels v s.cfg.bits s.cfg.bitOrder) (by simpa using hbits) s.cfg.bitOrder
    rw [length_dataLevels, valueOfLevels_dataLevels hbits] at hfold
    rw [hrx, heardRx_acc_of_le (Nat.le_add_right _ _), hfold]
  have hdiag : s.rx.diag = d := by rw [hrx]; rfl
  have hcommit : (s.stamp ts).commit = .next _ :=
    State.commit_eq_next.2 ⟨_, State.push_of_lt (s := s.stamp ts) _ hroom, rfl⟩
  rw [hst, eventInstr, if_pos rfl, exec_evStop1_eq_timed hv hst, State.timed_of_onTime htime rfl]
  exact ⟨_, hcommit, rfl, rfl, hdiag, by rw [← hword]; rfl⟩

end

/-! ### The events of a frame, delivered one by one -/

section
variable {s : State} (hvalid : s.cfg.valid = true) (hv : s.cfg.verify = true) (hst : s.rx.state = .idle) (v : Byte)
  (t0 : Nat)
include hvalid

/-- The next event of a frame comes CPB after the one before. -/
theorem elapsed_next {u : State} (hcfg : u.cfg = s.cfg) {m : Nat}
    (hprev : u.rx.prevTs = (t0 + m * s.cfg.cpb) % s.cfg.tsMod) :
    u.elapsed ((t0 + (m + 1) * s.cfg.cpb) % s.cfg.tsMod) = s.cfg.cpb := by
  have hcpb := cpb_lt_tsMod_of_valid hvalid
  rw [← hcfg] at hcpb ⊢
  rw [State.elapsed_eq_cpb_iff hcpb (Nat.mod_lt _ (tsMod_pos _)), hprev, ← hcfg, Nat.mod_add_mod, Nat.succ_mul,
    Nat.add_assoc]

include hv hst

/-- RX after the start event and `m` more events of a frame. -/
theorem deliver_take_frameEvents {m : Nat} (hm : m ≤ s.cfg.bits + s.cfg.parityMode.segments) :
    deliver ((frameEvents s.cfg v t0).take (m + 1)) s =
      .next (s.hears v m ((t0 + m * s.cfg.cpb) % s.cfg.tsMod)) := by
  induction m with
  | zero =>
    rw [List.take_add_one, frameEvents_getElem?, frameOf_zero, Nat.zero_mul, Nat.add_zero, List.take_zero,
      List.nil_append, Option.map_some, Option.toList_some, deliver_cons_of_lt (Nat.mod_lt _ (tsMod_pos _)),
      exec_start hvalid hv hst v]
    rfl
  | succ m ih =>
    have hlen : m + 1 < (frameOf s.cfg v).length := by
      rw [length_frameOf, segments_eq]
      omega
    have hl : (frameOf s.cfg v)[m + 1]? = some (frameOf s.cfg v)[m + 1] := List.getElem?_eq_getElem hlen
    rw [List.take_add_one, deliver_append, ih (by omega), andThen_next, frameEvents_getElem?, hl, Option.map_some,
      Option.toList_some, deliver_cons_of_lt (s := s.hears v m _) (mod_tsMod_lt s.cfg _),
      exec_heard_next (s := s.hears v m _) hvalid hv rfl hm hl (elapsed_next (u := s.hears v m _) hvalid t0 rfl rfl)]
    rfl

/-- R161: the events of a frame commit the word that was sent. -/
theorem deliver_frameEvents (hroom : s.queue.count < s.cfg.queueCapacity) :
    ∃ t, deliver (frameEvents s.cfg v t0) s = .next t ∧ CommitFrame s t ∧ t.rx.state = .idle ∧
      t.rx.diag = s.rx.diag ∧ t.queue = { s.queue with
        mem := s.queue.mem.write s.tail (wordOf s.cfg.bits v), count := s.queue.count + 1 } := by
  have hlast : frameEvents s.cfg v t0 =
      (frameEvents s.cfg v t0).take (s.cfg.bits + s.cfg.parityMode.segments + 1) ++
        [⟨true, (t0 + (s.cfg.bits + s.cfg.parityMode.segments + 1) * s.cfg.cpb) % s.cfg.tsMod⟩] := by
    have hall := List.take_of_length_le (l := frameEvents s.cfg v t0)
      (i := s.cfg.bits + s.cfg.parityMode.segments + 1 + 1) (by
        rw [frameEvents, List.length_mapIdx, length_frameOf, segments_eq])
    rw [List.take_add_one, frameEvents_getElem?, frameOf_stop] at hall
    exact hall.symm
  obtain ⟨t, hexec, hframe, hst', hdiag, hqueue⟩ := exec_heard_stop
    (s := s.hears v (s.cfg.bits + s.cfg.parityMode.segments) _) hvalid hv rfl
    (elapsed_next (m := s.cfg.bits + s.cfg.parityMode.segments) (u := s.hears v _ _) hvalid t0 rfl rfl) hroom
  refine ⟨t, ?_, CommitFrame.trans (t := s.hears v _ _) rfl hframe, hst', hdiag, hqueue⟩
  rw [hlast, deliver_append, deliver_take_frameEvents hvalid hv hst v t0 le_rfl, andThen_next,
    deliver_cons_of_lt (s := s.hears v _ _) (mod_tsMod_lt s.cfg _), hexec]
  rfl

end

/-! ### A frame with one event changed -/

/-- The change that the statements of R163 make to one event of a list. -/
theorem mapIdx_ite_eq_modify (es : List Event) (k : Nat) (f : Event → Event) :
    (es.mapIdx fun j e => if j = k then f e else e) = es.modify k f := by
  refine List.ext_getElem? fun j => ?_
  rw [List.getElem?_mapIdx, List.getElem?_modify]
  simp [eq_comm]

theorem modify_eq_of_getElem? {k : Nat} {es : List Event} {e : Event} (h : es[k]? = some e) (f : Event → Event) :
    es.modify k f = es.take k ++ f e :: es.drop (k + 1) := by
  obtain ⟨hk, rfl⟩ := List.getElem?_eq_some_iff.1 h
  exact List.modify_eq_take_cons_drop hk

/-- R158: a list of events that reaches Fault at one of them ends there. -/
theorem deliver_of_fault {s u w : State} {es fs : List Event} {l : Level} {ts : Nat} (hes : deliver es s = .next u)
    (hts : ts < u.cfg.tsMod) (hexec : exec (eventInstr u.rx.state l ts) u = .next w) (hfault : w.rx.state = .fault) :
    deliver (es ++ ⟨l, ts⟩ :: fs) s = .next w := by
  rw [deliver_append, hes, andThen_next, deliver_cons_of_lt hts, hexec, andThen_next]
  exact faultIgnoresEveryEvent.2 fs w hfault

theorem rxFrame_hears {s t : State} {v : Byte} {m ts : Nat} (h : RxFrame (s.hears v m ts) t) : RxFrame s t := h

/-- The value with one bit inverted. -/
def flipBit (v : Byte) (b : Nat) : Byte := v ^^^ BitVec.twoPow 8 b

theorem getLsbD_flipBit {b i : Nat} (v : Byte) (hi : i < 8) :
    (flipBit v b).getLsbD i = (v.getLsbD i ^^ decide (i = b)) := by
  rw [flipBit, BitVec.getLsbD_xor, BitVec.getLsbD_twoPow]
  by_cases hib : i = b
  · simp [← hib, hi]
  · simp [hib, Ne.symm hib]

theorem wordOf_flipBit {n b : Nat} (v : Byte) (hb : b < n) : wordOf n (flipBit v b) = flipBit (wordOf n v) b := by
  refine BitVec.eq_of_getLsbD_eq fun i hi => ?_
  rw [getLsbD_wordOf, getLsbD_flipBit v hi, getLsbD_flipBit _ hi, getLsbD_wordOf]
  by_cases hib : i = b
  · simp [hib, hb]
  · simp [hib]

theorem xorReduce_flipBit {b : Nat} (hb : b < 8) (v : Byte) : xorReduce (flipBit v b) = !xorReduce v := by
  revert b v; decide +kernel

/-- R104: one inverted bit of the word inverts the parity level. -/
theorem parityLevel_flipBit {n b : Nat} (hn : n ≤ 8) (hb : b < n) (v : Byte) (pm : ParityMode) :
    parityLevel (flipBit v b) n pm = !parityLevel v n pm := by
  rw [parityLevel, wordOf_flipBit v hb, xorReduce_flipBit (by omega), parityLevel, Bool.not_xor]

/-- One inverted bit of the word inverts the data level that carries it, and no other. -/
theorem dataLevel_flipBit {n k i : Nat} (hn : n ≤ 8) (hk : k < n) (hi : i < n) (v : Byte) (order : BitOrder) :
    dataLevel (flipBit v (levelBit order n k)) n order i =
      if i = k then !dataLevel v n order i else dataLevel v n order i := by
  have hbit := levelBit_lt order hi
  rw [dataLevel_eq_getLsbD, dataLevel_eq_getLsbD, getLsbD_flipBit v (by omega)]
  by_cases hik : i = k
  · simp [hik]
  · have hne : levelBit order n i ≠ levelBit order n k := fun h => hik (by
      rw [← levelBit_levelBit order hi, h, levelBit_levelBit order hk])
    simp [hik, hne]

theorem modify_append_of_lt {ls : List Level} {k : Nat} (h : k < ls.length) (ms : List Level) (f : Level → Level) :
    (ls ++ ms).modify k f = ls.modify k f ++ ms := by
  induction ls generalizing k with
  | nil => simp at h
  | cons l ls ih =>
    cases k with
    | zero => rfl
    | succ k => simp [ih (Nat.lt_of_succ_lt_succ h)]

theorem modify_append_length {ls : List Level} {k : Nat} (h : k = ls.length) (ms : List Level) (f : Level → Level) :
    (ls ++ ms).modify k f = ls ++ ms.modify 0 f := by
  subst h
  induction ls with
  | nil => rfl
  | cons l ls ih => simp [ih]

theorem dataLevels_flipBit {n k : Nat} (hn : n ≤ 8) (hk : k < n) (v : Byte) (order : BitOrder) :
    dataLevels (flipBit v (levelBit order n k)) n order = (dataLevels v n order).modify k (! ·) := by
  refine List.ext_getElem (by simp) fun i hi _ => ?_
  rw [length_dataLevels] at hi
  rw [List.getElem_modify]
  simp only [dataLevels, List.getElem_map, List.getElem_range]
  rw [dataLevel_flipBit hn hk hi]
  simp [eq_comm]

theorem frameOf_eq_cons (c : Cfg) (v : Byte) :
    frameOf c v = false :: (dataLevels v c.bits c.bitOrder ++ (parityLevels v c.bits c.parityMode ++ [true])) := by
  rw [frameOf, frameLevels_eq, List.append_assoc, List.append_assoc]
  rfl

/-- R163(c): a frame with an inverted data level is, without parity, the frame of another value. -/
theorem frameOf_flipBit_of_none {c : Cfg} {k : Nat} (hbits : c.bits ≤ 8) (hk : k < c.bits) (v : Byte)
    (hpar : c.parityMode = .none) :
    (frameOf c v).modify (k + 1) (! ·) = frameOf c (flipBit v (levelBit c.bitOrder c.bits k)) := by
  rw [frameOf_eq_cons, frameOf_eq_cons, dataLevels_flipBit hbits hk, List.modify_succ_cons,
    modify_append_of_lt (by simpa using hk), parityLevels, parityLevels, if_pos hpar, if_pos hpar]

/-- R163(c): with parity it is the frame of that value with the parity level inverted. -/
theorem frameOf_flipBit_of_parity {c : Cfg} {k : Nat} (hbits : c.bits ≤ 8) (hk : k < c.bits) (v : Byte)
    (hpar : c.parityMode ≠ .none) :
    (frameOf c v).modify (k + 1) (! ·) =
      (frameOf c (flipBit v (levelBit c.bitOrder c.bits k))).modify (c.bits + 1) (! ·) := by
  rw [frameOf_eq_cons, frameOf_eq_cons, List.modify_succ_cons, List.modify_succ_cons,
    modify_append_of_lt (by simpa using hk), ← dataLevels_flipBit hbits hk]
  rw [modify_append_length (length_dataLevels _ _ _).symm, parityLevels, parityLevels, if_neg hpar, if_neg hpar,
    parityLevel_flipBit hbits (levelBit_lt _ hk)]
  simp

theorem modify_frameEvents (c : Cfg) (v : Byte) (t0 k : Nat) :
    ((frameEvents c v t0).mapIdx fun j e => if j = k then { e with level := !e.level } else e) =
      ((frameOf c v).modify k (! ·)).mapIdx fun k l => ⟨l, (t0 + k * c.cpb) % c.tsMod⟩ := by
  refine List.ext_getElem? fun j => ?_
  rw [List.getElem?_mapIdx, List.getElem?_mapIdx, List.getElem?_modify, frameEvents_getElem?]
  cases (frameOf c v)[j]? with
  | none => rfl
  | some l =>
    by_cases hj : k = j
    · simp [hj]
    · simp [hj, Ne.symm hj]

end Sys2Proof.Machine
end

section
/-! The statements about a frame's events (43_reference_receiver R161, R163). -/

namespace Sys2Proof.Machine

/-- Settles O53: RX takes the events one by one; none leads to Fault, because Fault would stay to the end. -/
theorem roundTrip : Obligations.RoundTrip := by
  intro s v t0 hvalid hv hst hroom es tail
  obtain ⟨t, hdeliver, hframe, hidle, hdiag, hqueue⟩ := deliver_frameEvents hvalid hv hst v t0 hroom
  have hmem : t.queue.mem = s.queue.mem.write tail (wordOf s.cfg.bits v) := congrArg Queue.mem hqueue
  refine ⟨fun k => ?_, t, hdeliver, hidle, hdiag, hframe, by rw [hqueue], by rw [hqueue],
    by rw [hqueue], fun i _ => ?_, fun a ha => ?_⟩
  · rw [← List.take_append_drop k (frameEvents s.cfg v t0), deliver_append] at hdeliver
    obtain ⟨u, htake, hdrop⟩ := andThen_eq_next.1 hdeliver
    refine ⟨u, htake, fun hfault => ?_⟩
    rw [faultIgnoresEveryEvent.2 _ u hfault] at hdrop
    cases hdrop
    rw [hidle] at hfault
    cases hfault
  · rw [State.entry_write_self hmem, getLsbD_wordOf, Bool.and_comm]
    rfl
  · exact State.entry_write_other hmem (by rw [hframe]) ha

/-- Settles O54: RX has heard the events before the changed one, whose timing check fails at its position. -/
theorem jitterIsDetected : Obligations.JitterIsDetected := by
  intro s v t0 k ts hvalid hv hst hk hlt hts hne
  obtain ⟨m, rfl⟩ := Nat.exists_eq_add_one.2 hk
  rw [segments_eq] at hlt
  have hm : m ≤ s.cfg.bits + s.cfg.parityMode.segments := by omega
  have hlen : m + 1 < (frameEvents s.cfg v t0).length := by
    rw [frameEvents, List.length_mapIdx, length_frameOf, segments_eq]
    omega
  have htime : (s.hears v m ((t0 + m * s.cfg.cpb) % s.cfg.tsMod)).elapsed ts ≠ s.cfg.cpb := fun h => by
    refine hne (((State.elapsed_eq_cpb_iff (s := s.hears v m _) (cpb_lt_tsMod_of_valid hvalid) hts).1 h).trans ?_)
    change ((t0 + m * s.cfg.cpb) % s.cfg.tsMod + s.cfg.cpb) % s.cfg.tsMod = _
    rw [Nat.mod_add_mod, Nat.succ_mul, Nat.add_assoc]
  obtain ⟨u, pos, hexec, hframe, hfault, hdiag, hpos⟩ := exec_heard_mistimed (s := s.hears v m _) hvalid hv rfl hm htime
    ((frameEvents s.cfg v t0)[m + 1]).level
  refine ⟨u, ?_, hfault, ?_, ?_, ?_, rxFrame_hears hframe⟩
  · rw [mapIdx_ite_eq_modify, List.modify_eq_take_cons_drop hlen]
    exact deliver_of_fault (deliver_take_frameEvents hvalid hv hst v t0 hm) hts hexec hfault
  · rw [hdiag]
  · rw [hdiag]
    rfl
  · rw [hdiag, hpos, Nat.add_sub_cancel]

/-- Settles O55: RX has heard the word, and the level of its next event is not the one the word requires. -/
theorem flippedParityIsDetected : Obligations.FlippedParityIsDetected := by
  intro s v t0 hvalid hv hst hpar l
  have hprefix := deliver_take_frameEvents (m := s.cfg.bits) hvalid hv hst v t0 (Nat.le_add_right _ _)
  obtain ⟨u, hexec, hframe, hfault, hdiag⟩ := exec_parity_inverted (s := s.hears v s.cfg.bits _) hv
    (bits_bounds_of_valid hvalid).2 hpar rfl (elapsed_next (m := s.cfg.bits) (u := s.hears v _ _) hvalid t0 rfl rfl)
  have hat : (frameEvents s.cfg v t0)[s.cfg.bits + 1]? =
      some ⟨l, (t0 + (s.cfg.bits + 1) * s.cfg.cpb) % s.cfg.tsMod⟩ := by
    rw [frameEvents_getElem?, frameOf_parity v hpar]
    rfl
  refine ⟨u, ?_, hfault, ?_, rxFrame_hears hframe⟩
  · refine (congrArg (deliver · s) ((mapIdx_ite_eq_modify _ _ _).trans (modify_eq_of_getElem? hat _))).trans ?_
    exact deliver_of_fault hprefix (mod_tsMod_lt s.cfg _) hexec hfault
  · rw [hdiag, levelNat_eq_ite, levelNat_eq_ite]
    change Diag.mk _ (if l then 1 else 0) (if !l then 1 else 0) _ = _
    cases l <;> rfl

/-- Settles O56: the changed list is the events of the value with that bit inverted; without parity it is committed,
and with parity its parity level is inverted. -/
theorem flippedDataLevel : Obligations.FlippedDataLevel := by
  intro s v t0 k hvalid hv hst hk es tail bit
  have hbits := (bits_bounds_of_valid hvalid).2
  have hbit : levelBit s.cfg.bitOrder s.cfg.bits k = bit := by
    simp only [bit]
    cases s.cfg.bitOrder <;> rfl
  refine ⟨fun hpar => ?_, fun hpar hroom => ?_⟩
  · have hes : es = (frameEvents s.cfg (flipBit v bit) t0).mapIdx fun j e =>
        if j = s.cfg.bits + 1 then { e with level := !e.level } else e := by
      rw [modify_frameEvents, ← hbit, ← frameOf_flipBit_of_parity hbits hk v hpar, ← modify_frameEvents]
    obtain ⟨t, hdeliver, hfault, hdiag, hframe⟩ := flippedParityIsDetected s (flipBit v bit) t0 hvalid hv hst hpar
    exact ⟨t, hes ▸ hdeliver, hfault, congrArg Diag.kind hdiag, hframe⟩
  · have hes : es = frameEvents s.cfg (flipBit v bit) t0 := by
      simp only [es]
      rw [modify_frameEvents, frameOf_flipBit_of_none hbits hk v hpar, hbit, frameEvents]
    obtain ⟨-, t, hdeliver, hidle, -, -, -, hcount, -, hword, -⟩ := roundTrip s (flipBit v bit) t0 hvalid hv hst hroom
    refine ⟨t, hes ▸ hdeliver, hidle, hcount, fun i hi => ?_⟩
    rw [hword i hi, getLsbD_flipBit v hi]

end Sys2Proof.Machine
end

section
/-! SUPPORT. TX over the cycles of a frame (42_transmission_driver R120 to R130): its registers in each cycle of each
segment, and what the next operation makes of them. -/

namespace Sys2Proof.Machine

/-- The shift register after `i` data segments of the word `w` (R46, R124). -/
def shiftedTx (order : BitOrder) (n : Nat) (w : Byte) (i : Nat) : Byte :=
  match order with
  | .lsb => w >>> i
  | .msb => w <<< (8 - n) <<< i

theorem alignTx_eq_shiftedTx (order : BitOrder) (n : Nat) (w : Byte) : alignTx order n w = shiftedTx order n w 0 := by
  cases order <;> simp [alignTx, shiftedTx]

theorem shiftTx_shiftedTx (order : BitOrder) (n : Nat) (w : Byte) (i : Nat) :
    shiftTx order (shiftedTx order n w i) = shiftedTx order n w (i + 1) := by
  cases order with
  | lsb => exact (BitVec.shiftRight_add w i 1).symm
  | msb => exact (BitVec.shiftLeft_add (w <<< (8 - n)) i 1).symm

/-- R102, R103, R124: each data segment writes its data level. -/
theorem shiftOut_shiftedTx {n i : Nat} (order : BitOrder) (v : Byte) (hn : n ≤ 8) (hi : i < n) :
    shiftOut order (shiftedTx order n (wordOf n v) i) = dataLevel v n order i := by
  cases order with
  | lsb => exact getLsbD_zero_wordOf_shiftRight v hi
  | msb => exact getLsbD_seven_wordOf_shiftLeft v hn hi

/-- The segment whose level is level `k` of a frame (R60). -/
def segmentOf (c : Cfg) (k : Nat) : TxSeg :=
  if k = 0 then .start
  else if k ≤ c.bits then .data
  else if k ≤ c.bits + c.parityMode.segments then .parity
  else .stop

/-- TX's registers while level `k` of the frame of `v` is on the pin, with `cnt` on the hold counter. -/
def sendingTx (c : Cfg) (v : Byte) (k cnt : Nat) : Tx where
  pin := (frameOf c v).getD k true
  shift := shiftedTx c.bitOrder c.bits (wordOf c.bits v) (min k c.bits)
  rem := BitVec.ofNat 4 (c.bits - k)
  par := parityLevel v c.bits c.parityMode
  seg := segmentOf c k
  cnt := cnt
  excl := true

theorem segmentOf_ne_idle (c : Cfg) (k : Nat) : segmentOf c k ≠ .idle := by
  unfold segmentOf
  split_ifs <;> decide

theorem frameOf_getD {c : Cfg} {v : Byte} {k : Nat} {l : Level} (h : (frameOf c v)[k]? = some l) :
    (frameOf c v).getD k true = l := by
  rw [List.getD_eq_getElem?_getD, h]
  rfl

section
variable {s : State} {v : Byte} {k r : Nat}

/-- R121: the accept. -/
theorem txStep_accept (hidle : s.tx.seg = .idle) {w : BitVec 9} (hw : w = pack9 true v) :
    (s.txStep w).tx = sendingTx s.cfg v 0 (s.cfg.cpb - 1) ∧ (s.txStep w).out.wr = some ⟨false, s.cyc⟩ := by
  have hrem : BitVec.ofNat 4 s.cfg.bits = s.cfg.dataBits := BitVec.ofNat_toNat ..
  have hpin : (frameOf s.cfg v)[0]?.getD true = false := by rw [frameOf_zero]; rfl
  simp [State.txStep, s.txSel_idle_iff.2 hidle, hw, sendingTx, segmentOf, hrem, hpin, alignTx_eq_shiftedTx]

/-- R123: a cycle that holds the level. -/
theorem txStep_hold (htx : s.tx = sendingTx s.cfg v k r) (hr : r ≠ 0) (w : BitVec 9) :
    (s.txStep w).tx = sendingTx s.cfg v k (r - 1) ∧ (s.txStep w).out.wr = none := by
  have hsel : s.txSel = .hold := State.txSel_eq_hold (by rw [htx]; exact segmentOf_ne_idle _ _) (by rwa [htx])
  simp [State.txStep, hsel, htx, sendingTx]

/-- R124: the boundary before a data level. -/
theorem txStep_toData (hbits : s.cfg.bits ≤ 8) (htx : s.tx = sendingTx s.cfg v k 0) (hk : k < s.cfg.bits)
    (w : BitVec 9) :
    (s.txStep w).tx = sendingTx s.cfg v (k + 1) (s.cfg.cpb - 1) ∧
      (s.txStep w).out.wr = some ⟨(sendingTx s.cfg v (k + 1) (s.cfg.cpb - 1)).pin, s.cyc⟩ := by
  have hseg : s.tx.seg = .start ∨ s.tx.seg = .data := by
    rw [htx]
    by_cases h0 : k = 0 <;> simp [sendingTx, segmentOf, h0, hk.le]
  have hrem : s.tx.rem ≠ 0 := by
    rw [htx]
    exact fun h => absurd ((ofNat_eq_zero_iff (by omega)).1 h) (by omega)
  have hsel : s.txSel = .data :=
    (State.txSel_eq_boundarySel hseg (by rw [htx]; rfl)).trans (State.boundarySel_eq_data hrem)
  have hout : shiftOut s.cfg.bitOrder s.tx.shift = (frameOf s.cfg v).getD (k + 1) true := by
    rw [htx, frameOf_getD (frameOf_data v hk), sendingTx, Nat.min_eq_left hk.le, shiftOut_shiftedTx _ _ hbits hk]
  have hpred : s.tx.rem - 1 = BitVec.ofNat 4 (s.cfg.bits - (k + 1)) := by
    rw [htx]
    exact ofNat_pred (by omega)
  have hshift : shiftTx s.cfg.bitOrder s.tx.shift =
      shiftedTx s.cfg.bitOrder s.cfg.bits (wordOf s.cfg.bits v) (min (k + 1) s.cfg.bits) := by
    rw [htx, sendingTx, Nat.min_eq_left hk.le, shiftTx_shiftedTx, Nat.min_eq_left hk]
  have hsegment : segmentOf s.cfg (k + 1) = .data := by simp [segmentOf, Nat.succ_le_of_lt hk]
  have hpar : s.tx.par = parityLevel v s.cfg.bits s.cfg.parityMode := by rw [htx]; rfl
  have hexcl : s.tx.excl = true := by rw [htx]; rfl
  rw [sendingTx, ← hout, ← hshift, ← hpred, hsegment, ← hpar, ← hexcl, State.txStep, hsel]
  exact ⟨rfl, rfl⟩

/-- The registers that a parity or stop segment writes, after the data segments. -/
theorem sendingTx_succ_of_le {c : Cfg} {l : Level} {g : TxSeg} {n : Nat} (hk : c.bits ≤ k)
    (hl : (frameOf c v)[k + 1]? = some l) (hg : segmentOf c (k + 1) = g) :
    sendingTx c v (k + 1) n = { sendingTx c v k r with pin := l, seg := g, cnt := n } := by
  simp only [sendingTx, frameOf_getD hl, hg, Nat.min_eq_right hk, Nat.min_eq_right (hk.trans (Nat.le_succ k)),
    Nat.sub_eq_zero_of_le hk, Nat.sub_eq_zero_of_le (hk.trans (Nat.le_succ k))]

/-- R125: the boundary before the parity level. -/
theorem txStep_toParity (hbits : 1 ≤ s.cfg.bits) (htx : s.tx = sendingTx s.cfg v s.cfg.bits 0)
    (hpar : s.cfg.parityMode ≠ .none) (w : BitVec 9) :
    (s.txStep w).tx = sendingTx s.cfg v (s.cfg.bits + 1) (s.cfg.cpb - 1) ∧
      (s.txStep w).out.wr = some ⟨(sendingTx s.cfg v (s.cfg.bits + 1) (s.cfg.cpb - 1)).pin, s.cyc⟩ := by
  have hseg : s.tx.seg = .data := by
    rw [htx]
    simp [sendingTx, segmentOf, Nat.one_le_iff_ne_zero.1 hbits]
  have hrem : s.tx.rem = 0 := by
    rw [htx, sendingTx, Nat.sub_self]
    rfl
  have hsel : s.txSel = .parity := (State.txSel_eq_boundarySel (.inr hseg) (by rw [htx]; rfl)).trans
    (State.boundarySel_eq_parity hrem hpar)
  have hsegment : segmentOf s.cfg (s.cfg.bits + 1) = .parity := by simp [segmentOf, segments_eq_one hpar]
  rw [sendingTx_succ_of_le (r := 0) le_rfl (frameOf_parity v hpar) hsegment, State.txStep, hsel, ← htx]
  have hlevel : s.tx.par = parityLevel v s.cfg.bits s.cfg.parityMode := by rw [htx]; rfl
  rw [← hlevel]
  exact ⟨rfl, rfl⟩

/-- R126: the boundary before the stop level. -/
theorem txStep_toStop (hbits : 1 ≤ s.cfg.bits)
    (htx : s.tx = sendingTx s.cfg v (s.cfg.bits + s.cfg.parityMode.segments) 0) (w : BitVec 9) :
    (s.txStep w).tx = sendingTx s.cfg v (s.cfg.bits + s.cfg.parityMode.segments + 1) (s.cfg.cpb - 1) ∧
      (s.txStep w).out.wr = some
        ⟨(sendingTx s.cfg v (s.cfg.bits + s.cfg.parityMode.segments + 1) (s.cfg.cpb - 1)).pin, s.cyc⟩ := by
  have hcnt : s.tx.cnt = 0 := by rw [htx]; rfl
  have hsel : s.txSel = .stop := by
    refine State.txSel_eq_stop hcnt ?_
    by_cases hpar : s.cfg.parityMode = .none
    · refine .inr ⟨?_, ?_, hpar⟩ <;> rw [htx, hpar]
      · simp [sendingTx, segmentOf, ParityMode.segments, Nat.one_le_iff_ne_zero.1 hbits]
      · simp [sendingTx, ParityMode.segments]
    · refine .inl ?_
      rw [htx]
      simp [sendingTx, segmentOf, segments_eq_one hpar]
  have hsegment : segmentOf s.cfg (s.cfg.bits + s.cfg.parityMode.segments + 1) = .stop := by
    have hlate : ¬ s.cfg.bits + s.cfg.parityMode.segments + 1 ≤ s.cfg.bits := by omega
    simp [segmentOf, hlate]
  rw [sendingTx_succ_of_le (r := 0) (Nat.le_add_right _ _) (frameOf_stop s.cfg v) hsegment, State.txStep, hsel, ← htx]
  exact ⟨rfl, rfl⟩

/-- R120: the boundary before level `k + 1`, whichever segment it begins. -/
theorem txStep_boundary (hvalid : s.cfg.valid = true) (htx : s.tx = sendingTx s.cfg v k 0)
    (hk : k + 1 < s.cfg.segments) (w : BitVec 9) :
    (s.txStep w).tx = sendingTx s.cfg v (k + 1) (s.cfg.cpb - 1) ∧
      (s.txStep w).out.wr = some ⟨(sendingTx s.cfg v (k + 1) (s.cfg.cpb - 1)).pin, s.cyc⟩ := by
  obtain ⟨hpos, hbits⟩ := bits_bounds_of_valid hvalid
  have hone := segments_le_one s.cfg.parityMode
  rw [segments_eq] at hk
  by_cases hdata : k < s.cfg.bits
  · exact txStep_toData hbits htx hdata w
  by_cases hstop : k = s.cfg.bits + s.cfg.parityMode.segments
  · subst hstop
    exact txStep_toStop hpos htx w
  · obtain rfl : k = s.cfg.bits := by omega
    exact txStep_toParity hpos htx (fun hnone => hstop (by rw [hnone]; rfl)) w

/-- R127: the end of the frame. -/
theorem txStep_finish (htx : s.tx = sendingTx s.cfg v (s.cfg.bits + s.cfg.parityMode.segments + 1) 0) (w : BitVec 9) :
    (s.txStep w).tx.seg = .idle ∧ (s.txStep w).tx.excl = false ∧ (s.txStep w).tx.pin = true ∧
      (s.txStep w).out.wr = none := by
  have hlate : ¬ s.cfg.bits + s.cfg.parityMode.segments + 1 ≤ s.cfg.bits := by omega
  have hsel : s.txSel = .finish := State.txSel_eq_finish (by rw [htx]; simp [sendingTx, segmentOf, hlate])
    (by rw [htx]; rfl)
  have hpin : s.tx.pin = true := by
    rw [htx]
    exact frameOf_getD (frameOf_stop s.cfg v)
  simp [State.txStep, hsel, hpin]

end

end Sys2Proof.Machine
end

section
/-! SUPPORT. The cycles of a frame, counted from its accept (42_transmission_driver R130). -/

namespace Sys2Proof.Machine

theorem div_mod_succ_of_lt {j d : Nat} (h : j % d + 1 < d) : (j + 1) / d = j / d ∧ (j + 1) % d = j % d + 1 :=
  (Nat.div_mod_unique (by omega)).2 ⟨by rw [Nat.add_right_comm, Nat.mod_add_div], h⟩

theorem div_mod_succ_of_eq {j d : Nat} (h : j % d + 1 = d) : (j + 1) / d = j / d + 1 ∧ (j + 1) % d = 0 := by
  refine (Nat.div_mod_unique (by omega)).2 ⟨?_, by omega⟩
  have hj := Nat.mod_add_div j d
  rw [Nat.mul_succ]
  omega

/-- What TX is `j` cycles after it has accepted `v` in the cycle that began with `cyc = c0`: the level of the segment
is on the pin, and it was written in the last cycle where a segment begins (R130). -/
structure Sending (c : Cfg) (v : Byte) (c0 j : Nat) (t : State) : Prop where
  cfg : t.cfg = c
  cyc : t.cyc = (c0 + j + 1) % c.tsMod
  tx : t.tx = sendingTx c v (j / c.cpb) (c.cpb - 1 - j % c.cpb)
  wr : t.out.wr = if j % c.cpb = 0 then some ⟨t.tx.pin, (c0 + j) % c.tsMod⟩ else none

/-- The cycle of the accept. -/
theorem cycle_accept {s t : State} {v : Byte} {p : Ports} (hinv : s.Inv) (hidle : s.tx.seg = .idle)
    (hpor : p.por = false) (hreq : p.txreq = pack9 true v) (hcycle : cycle p s = .next t) :
    Sending s.cfg v s.cyc 0 t := by
  obtain ⟨hcfg, hcyc, htx, hwr⟩ := cycle_tx hpor hcycle
  obtain ⟨htx', hwr'⟩ := txStep_accept (s := s.begin) hidle hreq
  rw [htx'] at htx
  refine ⟨hcfg, hcyc, ?_, ?_⟩
  · rw [htx, Nat.zero_div, Nat.zero_mod]
    rfl
  · rw [hwr, hwr', htx, Nat.zero_mod, if_pos rfl, Nat.add_zero, Nat.mod_eq_of_lt hinv.cyc_lt]
    rfl

/-- A cycle of a frame in flight that is not its last: the level is held, or the next one is written. -/
theorem Sending.cycle_next {c : Cfg} {v : Byte} {c0 j : Nat} {t u : State} {q : Ports} (h : Sending c v c0 j t)
    (hvalid : c.valid = true) (hj : j + 1 < c.segments * c.cpb) (hpor : q.por = false)
    (hcycle : cycle q t = .next u) : Sending c v c0 (j + 1) u := by
  obtain ⟨rfl, hcyc, htx, -⟩ := h
  have hcpb := cpb_pos_of_valid hvalid
  have hlt : j % t.cfg.cpb < t.cfg.cpb := Nat.mod_lt _ hcpb
  obtain ⟨hcfg', hcyc', htx', hwr'⟩ := cycle_tx hpor hcycle
  suffices hboth : u.tx = sendingTx t.cfg v ((j + 1) / t.cfg.cpb) (t.cfg.cpb - 1 - (j + 1) % t.cfg.cpb) ∧
      u.out.wr = if (j + 1) % t.cfg.cpb = 0 then some ⟨u.tx.pin, (c0 + (j + 1)) % t.cfg.tsMod⟩ else none from
    ⟨hcfg', by rw [hcyc', hcyc, Nat.mod_add_mod]; rfl, hboth.1, hboth.2⟩
  by_cases hlast : j % t.cfg.cpb + 1 = t.cfg.cpb
  · obtain ⟨hdiv, hmod⟩ := div_mod_succ_of_eq hlast
    have hk : j / t.cfg.cpb + 1 < t.cfg.segments := by
      rw [← hdiv]
      exact Nat.div_lt_of_lt_mul (by rwa [Nat.mul_comm])
    rw [show t.cfg.cpb - 1 - j % t.cfg.cpb = 0 by omega] at htx
    obtain ⟨htx'', hwr''⟩ := txStep_boundary (s := t.begin) hvalid htx hk q.txreq
    rw [hdiv, hmod, htx', htx'', hwr', hwr'', Nat.sub_zero, if_pos rfl, State.begin_cyc, hcyc]
    exact ⟨rfl, rfl⟩
  · obtain ⟨hdiv, hmod⟩ := div_mod_succ_of_lt (show j % t.cfg.cpb + 1 < t.cfg.cpb by omega)
    obtain ⟨htx'', hwr''⟩ := txStep_hold (s := t.begin) htx (by omega) q.txreq
    rw [hdiv, hmod, htx', htx'', hwr', hwr'', if_neg (Nat.succ_ne_zero _), Nat.sub_sub]
    exact ⟨rfl, rfl⟩

/-- In the last cycle of a frame the stop segment is on the pin and its hold is over. -/
theorem div_mod_of_last {c : Cfg} {j : Nat} (hvalid : c.valid = true) (hj : j + 1 = c.segments * c.cpb) :
    j / c.cpb = c.bits + c.parityMode.segments + 1 ∧ j % c.cpb + 1 = c.cpb := by
  have hcpb := cpb_pos_of_valid hvalid
  have hlt : j % c.cpb < c.cpb := Nat.mod_lt _ hcpb
  have hmod : (j + 1) % c.cpb = 0 := by rw [hj, Nat.mul_mod_left]
  have hlast : j % c.cpb + 1 = c.cpb := by
    by_contra hne
    have hsucc := (div_mod_succ_of_lt (show j % c.cpb + 1 < c.cpb by omega)).2
    omega
  have hdiv := (div_mod_succ_of_eq hlast).1
  rw [hj, Nat.mul_div_cancel _ hcpb, segments_eq] at hdiv
  exact ⟨by omega, hlast⟩

/-- The last cycle of a frame. -/
theorem Sending.cycle_last {c : Cfg} {v : Byte} {c0 j : Nat} {t u : State} {q : Ports} (h : Sending c v c0 j t)
    (hvalid : c.valid = true) (hj : j + 1 = c.segments * c.cpb) (hpor : q.por = false)
    (hcycle : cycle q t = .next u) :
    u.cyc = (c0 + (j + 1) + 1) % c.tsMod ∧ u.tx.seg = .idle ∧ u.tx.excl = false ∧ u.tx.pin = true ∧
      u.out.wr = none := by
  obtain ⟨rfl, hcyc, htx, -⟩ := h
  obtain ⟨hcfg', hcyc', htx', hwr'⟩ := cycle_tx hpor hcycle
  obtain ⟨hk, hlast⟩ := div_mod_of_last hvalid hj
  rw [hk, show t.cfg.cpb - 1 - j % t.cfg.cpb = 0 by omega] at htx
  rw [htx', hwr']
  refine ⟨by rw [hcyc', hcyc, Nat.mod_add_mod]; rfl, txStep_finish (s := t.begin) htx q.txreq⟩

theorem cycles_singleton (p : Ports) (s : State) : cycles [p] s = cycle p s := by
  rw [cycles_cons]
  cases cycle p s <;> rfl

theorem cycles_concat (ps : List Ports) (q : Ports) (s : State) :
    cycles (ps ++ [q]) s = andThen (cycles ps s) (cycle q) := by
  rw [cycles_append]
  exact andThen_congr fun t _ => cycles_singleton q t

/-- R130: a frame in flight, whatever the cycles after its accept carry but POR. -/
theorem cycles_sending {s : State} {v : Byte} {p : Ports} {ps : List Ports} (hinv : s.Inv)
    (hidle : s.tx.seg = .idle) (hpor : p.por = false) (hreq : p.txreq = pack9 true v)
    (hpors : ∀ q ∈ ps, q.por = false) (hlt : ps.length < s.cfg.segments * s.cfg.cpb) :
    ∃ t, cycles (p :: ps) s = .next t ∧ t.Inv ∧ Sending s.cfg v s.cyc ps.length t := by
  induction ps using List.reverseRecOn with
  | nil =>
    obtain ⟨t, hcycle⟩ := cycle_goesOn hinv p
    exact ⟨t, by rw [cycles_cons, hcycle]; rfl, cycle_inv hinv hcycle, cycle_accept hinv hidle hpor hreq hcycle⟩
  | append_singleton ps q ih =>
    rw [List.length_append, List.length_singleton] at hlt ⊢
    obtain ⟨t, hcycles, htinv, hsending⟩ := ih (fun r hr => hpors r (List.mem_append_left _ hr)) (by omega)
    obtain ⟨u, hcycle⟩ := cycle_goesOn htinv q
    refine ⟨u, ?_, cycle_inv htinv hcycle, hsending.cycle_next hinv.valid hlt (hpors q (by simp)) hcycle⟩
    rw [← List.cons_append, cycles_concat, hcycles, andThen_next, hcycle]

theorem segments_mul_cpb_pos {c : Cfg} (hvalid : c.valid = true) : 0 < c.segments * c.cpb :=
  Nat.mul_pos (by rw [segments_eq]; omega) (cpb_pos_of_valid hvalid)

/-- R130(e): the frame has ended. -/
theorem cycles_sent {s : State} {v : Byte} {p : Ports} {ps : List Ports} (hinv : s.Inv)
    (hidle : s.tx.seg = .idle) (hpor : p.por = false) (hreq : p.txreq = pack9 true v)
    (hpors : ∀ q ∈ ps, q.por = false) (hlen : ps.length = s.cfg.segments * s.cfg.cpb) :
    ∃ t, cycles (p :: ps) s = .next t ∧ t.cyc = (s.cyc + ps.length + 1) % s.cfg.tsMod ∧ t.tx.seg = .idle ∧
      t.tx.excl = false ∧ t.tx.pin = true ∧ t.out.wr = none := by
  have hpos := segments_mul_cpb_pos hinv.valid
  induction ps using List.reverseRecOn with
  | nil => exact absurd hlen hpos.ne
  | append_singleton ps q _ =>
    rw [List.length_append, List.length_singleton] at hlen ⊢
    obtain ⟨t, hcycles, htinv, hsending⟩ := cycles_sending hinv hidle hpor hreq
      (fun r hr => hpors r (List.mem_append_left _ hr)) (show ps.length < _ by omega)
    obtain ⟨u, hcycle⟩ := cycle_goesOn htinv q
    refine ⟨u, ?_, hsending.cycle_last hinv.valid hlen (hpors q (by simp)) hcycle⟩
    rw [← List.cons_append, cycles_concat, hcycles, andThen_next, hcycle]

theorem Sending.seg_ne_idle {c : Cfg} {v : Byte} {c0 j : Nat} {t : State} (h : Sending c v c0 j t) :
    t.tx.seg ≠ .idle := by
  rw [h.tx]
  exact segmentOf_ne_idle _ _

end Sys2Proof.Machine
end

section
/-! The statements about the cycles of a frame (42_transmission_driver R130). -/

namespace Sys2Proof.Machine

/-- Settles O51: by induction on the cycles, each of which holds the level or writes the next. -/
theorem traceOfOneFrame : Obligations.TraceOfOneFrame := by
  intro s v p ps hinv hidle hpor hreq hpors L k hle
  have hlen : L.length = s.cfg.segments := length_frameOf s.cfg v
  rw [hlen] at hle ⊢
  rcases Nat.lt_or_eq_of_le hle with hlt | heq
  · obtain ⟨t, hcycles, -, hsending⟩ := cycles_sending hinv hidle hpor hreq hpors hlt
    have hk : k < L.length := hlen ▸ Nat.div_lt_of_lt_mul (by rwa [Nat.mul_comm])
    refine ⟨t, hcycles, hsending.cyc, fun _ => ⟨?_, ?_, ?_, hsending.wr⟩, fun h => absurd h hlt.ne⟩
    · exact decide_eq_false hsending.seg_ne_idle
    · rw [hsending.tx]
      rfl
    · rw [hsending.tx, List.getElem?_eq_getElem hk]
      exact congrArg some (List.getD_eq_getElem _ _ hk)
  · obtain ⟨t, hcycles, hcyc, hseg, hrest⟩ := cycles_sent hinv hidle hpor hreq hpors heq
    exact ⟨t, hcycles, hcyc, fun h => absurd heq h.ne, fun _ => ⟨decide_eq_true hseg, hrest⟩⟩

end Sys2Proof.Machine
end

section
/-! SUPPORT. A blocking TX as the cycles of its frame (30_encoding R73), and the receiver that listens to them on the
wired event port (10_state R29, 20_memory R50). -/

namespace Sys2Proof.Machine

/-! ### Steps as cycles -/

theorem run_succ (k : Nat) (s : State) :
    (Host.Core.run Sys2Proof.core (k + 1) s : Result) = andThen (step s) (Host.Core.run Sys2Proof.core k) := by
  cases h : step s <;> simp only [Host.Core.run, show Sys2Proof.core.step s = _ from h] <;> rfl

theorem run_concat (k : Nat) (s : State) :
    (Host.Core.run Sys2Proof.core (k + 1) s : Result) = andThen (Host.Core.run Sys2Proof.core k s) step := by
  induction k generalizing s with
  | zero =>
    rw [run_succ]
    change andThen (step s) (fun t => .next t) = step s
    cases step s <;> rfl
  | succ k ih =>
    rw [run_succ, run_succ k]
    cases step s with
    | next t => exact ih t
    | fault r => rfl
    | refused r => rfl

theorem cycles_outside {p : Ports} {ps : List Ports} {s t : State} (h : cycles (p :: ps) s = .next t) :
    t.cfg = s.cfg ∧ t.inp = Ports.quiet ∧ t.host = s.host := by
  induction ps generalizing p s with
  | nil =>
    rw [cycles_singleton] at h
    obtain ⟨hcfg, -, hinp, hhost⟩ := cycle_outside h
    exact ⟨hcfg, hinp, hhost⟩
  | cons q ps ih =>
    obtain ⟨u, hcycle, hrest⟩ := andThen_eq_next.1 h
    obtain ⟨hcfg, -, -, hhost⟩ := cycle_outside hcycle
    obtain ⟨hcfg', hinp, hhost'⟩ := ih hrest
    exact ⟨hcfg'.trans hcfg, hinp, hhost'.trans hhost⟩

/-- R73: the step in which a blocking TX finds `tx_ready` 1. -/
theorem step_tx {s : State} {v : Byte} {rest : List Line} (hvalid : s.cfg.valid = true) (hidle : s.tx.seg = .idle)
    (hhost : s.host = .tx v :: rest) :
    step s = cycle { s.inp with txreq := pack9 true v } { s with host := .await :: rest } := by
  have hready : s.txReady = true := decide_eq_true hidle
  rw [step, if_pos hvalid, hhost, fetch, hready]
  rfl

/-- R73: a step that waits for the frame's end. -/
theorem step_await {s : State} {rest : List Line} (hvalid : s.cfg.valid = true) (hbusy : s.tx.seg ≠ .idle)
    (hhost : s.host = .await :: rest) : step s = cycle s.inp s := by
  have hready : s.txReady = false := decide_eq_false hbusy
  rw [step, if_pos hvalid, hhost, fetch, hready, if_neg Bool.false_ne_true]
  exact congrArg (cycle s.inp) (by rw [← hhost])

/-- R73: a blocking TX is the cycle of its request and then idle cycles, to the end of its frame. -/
theorem run_tx {s : State} {v : Byte} {rest : List Line} (hinv : s.Inv) (hidle : s.tx.seg = .idle)
    (hinp : s.inp = Ports.quiet) (hhost : s.host = .tx v :: rest) {j : Nat}
    (hj : j ≤ s.cfg.segments * s.cfg.cpb) :
    (Host.Core.run Sys2Proof.core (j + 1) s : Result) =
      cycles ({ Ports.quiet with txreq := pack9 true v } :: List.replicate j Ports.quiet)
        { s with host := .await :: rest } := by
  induction j with
  | zero =>
    rw [run_concat, ← hinp, List.replicate_zero, cycles_singleton]
    exact step_tx hinv.valid hidle hhost
  | succ j ih =>
    obtain ⟨t, hcycles, htinv, hsending⟩ := cycles_sending (s := { s with host := .await :: rest }) (v := v)
      (p := { Ports.quiet with txreq := pack9 true v }) (ps := List.replicate j Ports.quiet)
      (inv_of_same_block hinv rfl) hidle rfl rfl (fun q hq => by rw [List.eq_of_mem_replicate hq]; rfl)
      (by rw [List.length_replicate]; exact hj)
    obtain ⟨-, htinp, hthost⟩ := cycles_outside hcycles
    rw [run_concat, ih (by omega), List.replicate_succ', ← List.cons_append, cycles_concat, hcycles, andThen_next,
      andThen_next, step_await htinv.valid hsending.seg_ne_idle hthost, htinp]

/-! ### The wired event port -/

/-- R29, R50: with nothing else on its ports RX is delivered exactly what TX wrote. -/
theorem rxPhase_wired {p : Ports} (hreset : p.rxReset = false) (hevt : p.evt = none) (s : State) :
    rxPhase p s = deliver s.out.wr.toList s := by
  rw [rxPhase, if_neg (Bool.eq_false_iff.1 hreset), State.eventWord, hevt]
  cases s.out.wr with
  | none => rw [execAll_evInstrs, evtValid_packEvt]; rfl
  | some e =>
    change _ = andThen _ (deliver [])
    cases execAll (evInstrs s.select (packEvt s.cfg.tsWidth true e.level e.ts)) s <;> rfl

/-- A cycle whose ports carry nothing for the receiver. -/
def Ports.Wired (p : Ports) : Prop := p.por = false ∧ p.rxReset = false ∧ p.rxRead = false ∧ p.evt = none

theorem cycle_wired {p : Ports} (hp : p.Wired) (s : State) :
    cycle p s = andThen (txPhase p s.begin) fun t => andThen (deliver t.out.wr.toList t) fun u => .next u.tick := by
  obtain ⟨hpor, hreset, hread, hevt⟩ := hp
  rw [cycle, if_neg (Bool.eq_false_iff.1 hpor), readPhase_of_not_rxRead hread, andThen_next]
  exact andThen_congr fun t _ => by rw [rxPhase_wired hreset hevt]

/-! ### The receiver during a frame -/

/-- The receiver's side of two states is the same: its registers, the queue and what they read. -/
def SameReceiver (s t : State) : Prop := t.cfg = s.cfg ∧ t.rx = s.rx ∧ t.queue = s.queue ∧ t.epoch = s.epoch

theorem SameReceiver.trans {s t u : State} (h : SameReceiver s t) (h' : SameReceiver t u) : SameReceiver s u :=
  ⟨h'.1.trans h.1, h'.2.1.trans h.2.1, h'.2.2.1.trans h.2.2.1, h'.2.2.2.trans h.2.2.2⟩

/-- The receiver in a cycle with nothing else on its ports: it stays when TX wrote nothing, and takes the event of
TX's write. -/
theorem cycle_wired_receiver {p : Ports} (hp : p.Wired) {s t : State} (h : cycle p s = .next t) :
    (t.out.wr = none → SameReceiver s t) ∧
      ∀ e, t.out.wr = some e → ∃ u w, SameReceiver s u ∧
        exec (eventInstr u.rx.state e.level (e.ts % u.cfg.tsMod)) u = .next w ∧ SameReceiver w t := by
  have hwr := (cycle_tx hp.1 h).2.2.2
  have hframe := s.begin.txStep_frame p.txreq
  rw [TxFrame] at hframe
  rw [cycle_wired hp, txPhase_eq_txStep, andThen_next] at h
  have hsame : SameReceiver s (s.begin.txStep p.txreq) := by
    rw [hframe]
    exact ⟨rfl, rfl, rfl, rfl⟩
  rw [hwr]
  refine ⟨fun hnone => ?_, fun e he => ?_⟩
  · rw [hnone] at h
    cases h
    exact hsame
  · rw [he, Option.toList_some, deliver_cons] at h
    obtain ⟨x, hx, htick⟩ := andThen_eq_next.1 h
    obtain ⟨w, hexec, hnil⟩ := andThen_eq_next.1 hx
    obtain rfl : w = x := Host.Outcome.next.inj hnil
    cases htick
    exact ⟨_, w, hsame, hexec, rfl, rfl, rfl, rfl⟩

/-- What RX has made of the events up to level `k` of the frame of `v`, whose first event was at `c0`: it is in the
middle of the frame, or it has committed the word. -/
structure Received (s0 : State) (v : Byte) (c0 k : Nat) (t : State) : Prop where
  epoch : t.epoch = s0.epoch
  hearing : k ≤ s0.cfg.bits + s0.cfg.parityMode.segments →
    t.rx = heardRx s0.cfg v k ((c0 + k * s0.cfg.cpb) % s0.cfg.tsMod) s0.rx.diag ∧ t.queue = s0.queue
  done : s0.cfg.bits + s0.cfg.parityMode.segments < k →
    t.rx.state = .idle ∧ t.queue = { s0.queue with
      mem := s0.queue.mem.write s0.tail (wordOf s0.cfg.bits v), count := s0.queue.count + 1 }

theorem Received.of_same {s0 t u : State} {v : Byte} {c0 k : Nat} (h : Received s0 v c0 k t)
    (hsame : SameReceiver t u) : Received s0 v c0 k u := by
  obtain ⟨-, hrx, hqueue, hepoch⟩ := hsame
  exact ⟨hepoch.trans h.epoch, by rw [hrx, hqueue]; exact h.hearing, by rw [hrx, hqueue]; exact h.done⟩

/-- RX takes the next event of the frame. -/
theorem Received.next {s0 u w : State} {v : Byte} {c0 k : Nat} {l : Level} (h : Received s0 v c0 k u)
    (hcfg : u.cfg = s0.cfg) (hvalid : s0.cfg.valid = true) (hv : s0.cfg.verify = true)
    (hroom : s0.queue.count < s0.cfg.queueCapacity) (hk : k + 1 < s0.cfg.segments)
    (hl : (frameOf s0.cfg v)[k + 1]? = some l)
    (hexec : exec (eventInstr u.rx.state l ((c0 + (k + 1) * s0.cfg.cpb) % s0.cfg.tsMod)) u = .next w) :
    Received s0 v c0 (k + 1) w := by
  rw [segments_eq] at hk
  obtain ⟨hrx, hqueue⟩ := h.hearing (by omega)
  have htime := elapsed_next (u := u) hvalid c0 hcfg (m := k) (by rw [hrx]; rfl)
  rw [← hcfg] at hvalid hv hrx hl htime hroom hexec
  by_cases hmore : k < u.cfg.bits + u.cfg.parityMode.segments
  · cases (exec_heard_next hvalid hv hrx hmore hl htime).symm.trans hexec
    refine ⟨h.epoch, fun _ => ⟨by rw [← hcfg], hqueue⟩, fun hlt => ?_⟩
    rw [← hcfg] at hlt
    omega
  · obtain rfl : k = u.cfg.bits + u.cfg.parityMode.segments := by rw [hcfg] at hmore ⊢; omega
    obtain rfl : true = l := Option.some.inj ((frameOf_stop u.cfg v).symm.trans hl)
    obtain ⟨x, hx, hframe, hidle, -, hpushed⟩ := exec_heard_stop hvalid hv hrx htime (by rw [hqueue]; exact hroom)
    cases hx.symm.trans hexec
    refine ⟨?_, fun hle => ?_, fun _ => ⟨hidle, ?_⟩⟩
    · rw [hframe]
      exact h.epoch
    · rw [hcfg] at hle
      omega
    · rw [hpushed, hcfg, State.tail, hqueue, hcfg]
      rfl

/-- RX at the accept. -/
theorem Received.start {s t : State} {v : Byte} {p : Ports} (hp : p.Wired) (hinv : s.Inv) (hv : s.cfg.verify = true)
    (hst : s.rx.state = .idle) (hcycle : cycle p s = .next t) (hwr : t.out.wr = some ⟨false, s.cyc⟩) :
    Received s v s.cyc 0 t := by
  obtain ⟨u, w, hsame, hexec, hsame'⟩ := (cycle_wired_receiver hp hcycle).2 _ hwr
  obtain ⟨hcfg, hrx, hqueue, hepoch⟩ := hsame
  have hlt : s.cyc < u.cfg.tsMod := by rw [hcfg]; exact hinv.cyc_lt
  rw [Nat.mod_eq_of_lt hlt] at hexec
  have hstart := exec_start (s := u) (by rw [hcfg]; exact hinv.valid) (by rw [hcfg]; exact hv) (by rw [hrx]; exact hst)
    v s.cyc
  cases hstart.symm.trans hexec
  have hheard : Received s v s.cyc 0 (u.hears v 0 s.cyc) := by
    refine ⟨hepoch, fun _ => ⟨?_, hqueue⟩, fun hlt => absurd hlt (Nat.not_lt_zero _)⟩
    rw [Nat.zero_mul, Nat.add_zero, ← hcfg, Nat.mod_eq_of_lt hlt, ← hrx]
    rfl
  exact hheard.of_same hsame'

/-- RX in a cycle of a frame in flight. -/
theorem Received.cycle_next {s0 t u : State} {v : Byte} {c0 j : Nat} {q : Ports} (hq : q.Wired)
    (hvalid : s0.cfg.valid = true) (hv : s0.cfg.verify = true) (hroom : s0.queue.count < s0.cfg.queueCapacity)
    (hsending : Sending s0.cfg v c0 j t) (h : Received s0 v c0 (j / s0.cfg.cpb) t)
    (hj : j + 1 < s0.cfg.segments * s0.cfg.cpb) (hcycle : cycle q t = .next u) :
    Received s0 v c0 ((j + 1) / s0.cfg.cpb) u := by
  have hnext := hsending.cycle_next hvalid hj hq.1 hcycle
  have hlt : j % s0.cfg.cpb < s0.cfg.cpb := Nat.mod_lt _ (cpb_pos_of_valid hvalid)
  have hwr := hnext.wr
  by_cases hlast : j % s0.cfg.cpb + 1 = s0.cfg.cpb
  · obtain ⟨hdiv, hmod⟩ := div_mod_succ_of_eq hlast
    have hk : j / s0.cfg.cpb + 1 < s0.cfg.segments := by
      rw [← hdiv]
      exact Nat.div_lt_of_lt_mul (by rwa [Nat.mul_comm])
    have hpin : (frameOf s0.cfg v)[j / s0.cfg.cpb + 1]? = some u.tx.pin := by
      rw [hnext.tx, hdiv, sendingTx, List.getD_eq_getElem?_getD,
        List.getElem?_eq_getElem (by rw [length_frameOf]; exact hk)]
      rfl
    have hj1 : j + 1 = (j / s0.cfg.cpb + 1) * s0.cfg.cpb := by
      rw [← hdiv, Nat.div_mul_cancel (Nat.dvd_of_mod_eq_zero hmod)]
    rw [if_pos hmod] at hwr
    obtain ⟨x, w, hsame, hexec, hsame'⟩ := (cycle_wired_receiver hq hcycle).2 _ hwr
    have hcfg : x.cfg = s0.cfg := hsame.1.trans hsending.cfg
    rw [hcfg, Nat.mod_mod, hj1] at hexec
    rw [hdiv]
    exact ((h.of_same hsame).next hcfg hvalid hv hroom hk hpin hexec).of_same hsame'
  · obtain ⟨hdiv, hmod⟩ := div_mod_succ_of_lt (show j % s0.cfg.cpb + 1 < s0.cfg.cpb by omega)
    rw [if_neg (by omega)] at hwr
    rw [hdiv]
    exact h.of_same ((cycle_wired_receiver hq hcycle).1 hwr)

/-- R50, R130: TX in flight and RX behind it, cycle by cycle. -/
theorem cycles_received {s : State} {v : Byte} {p : Ports} {ps : List Ports} (hinv : s.Inv)
    (hv : s.cfg.verify = true) (hidle : s.tx.seg = .idle) (hst : s.rx.state = .idle)
    (hroom : s.queue.count < s.cfg.queueCapacity) (hreq : p.txreq = pack9 true v)
    (hwired : ∀ q ∈ p :: ps, q.Wired) (hlt : ps.length < s.cfg.segments * s.cfg.cpb) :
    ∃ t, cycles (p :: ps) s = .next t ∧ t.Inv ∧ Sending s.cfg v s.cyc ps.length t ∧
      Received s v s.cyc (ps.length / s.cfg.cpb) t := by
  have hp : p.Wired := hwired p (by simp)
  induction ps using List.reverseRecOn with
  | nil =>
    obtain ⟨t, hcycle⟩ := cycle_goesOn hinv p
    have hsending := cycle_accept hinv hidle hp.1 hreq hcycle
    refine ⟨t, by rw [cycles_singleton, hcycle], cycle_inv hinv hcycle, hsending, ?_⟩
    rw [List.length_nil, Nat.zero_div]
    exact Received.start hp hinv hv hst hcycle
      ((cycle_tx hp.1 hcycle).2.2.2.trans (txStep_accept (s := s.begin) hidle hreq).2)
  | append_singleton ps q ih =>
    have hq : q.Wired := hwired q (by simp)
    rw [List.length_append, List.length_singleton] at hlt ⊢
    obtain ⟨t, hcycles, htinv, hsending, hreceived⟩ :=
      ih (fun r hr => hwired r (by simp only [List.mem_cons, List.mem_append] at hr ⊢; tauto)) (by omega)
    obtain ⟨u, hcycle⟩ := cycle_goesOn htinv q
    refine ⟨u, ?_, cycle_inv htinv hcycle, hsending.cycle_next hinv.valid hlt hq.1 hcycle,
      Received.cycle_next hq hinv.valid hv hroom hsending hreceived hlt hcycle⟩
    rw [← List.cons_append, cycles_concat, hcycles, andThen_next, hcycle]

theorem queued_congr {s t : State} (hcfg : t.cfg = s.cfg) (hqueue : t.queue = s.queue) (hepoch : t.epoch = s.epoch) :
    t.queued = s.queued := by
  simp only [State.queued, State.entry, hcfg, hqueue, hepoch]

end Sys2Proof.Machine
end

section
/-! The statements about a blocking TX and about the wired stream (30_encoding R73, 20_memory R50). -/

namespace Sys2Proof.Machine

/-- Settles O43: the steps are the cycles of the request and of its frame. -/
theorem blockingTxTakesOneFrameAndOneStep : Obligations.BlockingTxTakesOneFrameAndOneStep := by
  intro v rest s hinv hidle hinp hhost
  obtain ⟨t, hcycles, hcyc, hseg, -⟩ := cycles_sent (s := { s with host := .await :: rest }) (v := v)
    (p := { Ports.quiet with txreq := pack9 true v })
    (ps := List.replicate (s.cfg.segments * s.cfg.cpb) Ports.quiet) (inv_of_same_block hinv rfl) hidle rfl rfl
    (fun q hq => by rw [List.eq_of_mem_replicate hq]; rfl) (by rw [List.length_replicate])
  obtain ⟨-, -, hthost⟩ := cycles_outside hcycles
  rw [List.length_replicate] at hcyc
  exact ⟨t, (run_tx hinv hidle hinp hhost le_rfl).trans hcycles, decide_eq_true hseg, hthost, hcyc⟩

/-- Settles O58: the wired event port carries TX's write of the cycle. -/
theorem receiverSeesEveryPinWrite : Obligations.ReceiverSeesEveryPinWrite :=
  fun _ s hpor hread hreset hevt => cycle_wired ⟨hpor, hreset, hread, hevt⟩ s

/-- Settles O57: while TX sends the frame RX hears its events, and has committed the word when the stop segment
begins; the frame's last cycle writes nothing. -/
theorem sentWordReachesTheQueue : Obligations.SentWordReachesTheQueue := by
  intro s v p ps hinv hv hidle hst hroom hreq hports hlen
  have hwired : ∀ q ∈ p :: ps, q.Wired := fun q hq => by
    obtain ⟨hpor, hreset, hread, hevt⟩ := hports q hq
    exact ⟨hpor, hreset, hread, hevt⟩
  have hpos := segments_mul_cpb_pos hinv.valid
  induction ps using List.reverseRecOn with
  | nil => exact absurd hlen hpos.ne
  | append_singleton ps q _ =>
    rw [List.length_append, List.length_singleton] at hlen
    have hq : q.Wired := hwired q (by simp)
    obtain ⟨t, hcycles, htinv, hsending, hreceived⟩ := cycles_received hinv hv hidle hst hroom hreq
      (fun r hr => hwired r (by simp only [List.mem_cons, List.mem_append] at hr ⊢; tauto))
      (show ps.length < _ by omega)
    obtain ⟨u, hcycle⟩ := cycle_goesOn htinv q
    obtain ⟨-, hseg, -, -, hwr⟩ := hsending.cycle_last hinv.valid hlen hq.1 hcycle
    have hsame := (cycle_wired_receiver hq hcycle).1 hwr
    have hk := Nat.lt_of_lt_of_eq (Nat.lt_succ_self _) (div_mod_of_last hinv.valid hlen).1.symm
    have hafter := hreceived.of_same hsame
    obtain ⟨hrx, hqueue⟩ := hafter.done hk
    refine ⟨u, ?_, decide_eq_true hseg, hrx, by rw [hqueue], ?_⟩
    · rw [← List.cons_append, cycles_concat, hcycles, andThen_next, hcycle]
    · have hpush := State.queued_of_push hroom (State.push_of_lt (wordOf s.cfg.bits v) hroom)
      refine Eq.trans ?_ hpush
      exact queued_congr (hsame.1.trans hsending.cfg) hqueue hafter.epoch

end Sys2Proof.Machine
end

section
/-! SUPPORT. The queue's order when a push overwrites the oldest entry, and what a good queue's bytes are bounded by
(20_memory R41 to R48). -/

namespace Sys2Proof.Machine

theorem State.queued_eq_cons {s : State} {n : Nat} (hcount : s.queue.count = n + 1) :
    s.queued = s.entry (s.queue.head % s.cfg.queueCapacity) ::
      (List.range n).map fun i => s.entry ((s.queue.head + (i + 1)) % s.cfg.queueCapacity) := by
  rw [State.queued, hcount, List.range_succ_eq_map, List.map_cons, List.map_map]
  rfl

/-- R43: a push that overwrites the oldest entry drops it and puts the byte behind the others. -/
theorem State.queued_of_overwrite {v : Byte} {s t : State} (hcap : 0 < s.cfg.queueCapacity)
    (hhead : s.queue.head < s.cfg.queueCapacity) (hfull : s.queue.count = s.cfg.queueCapacity)
    (ht : t = { s with queue := { s.queue with
      mem := s.queue.mem.write s.queue.head v, head := (s.queue.head + 1) % s.cfg.queueCapacity, overflow := true } }) :
    t.queued = s.queued.tail ++ [v] := by
  obtain ⟨n, hn⟩ := Nat.exists_eq_add_one.2 hcap
  have hmem : t.queue.mem = s.queue.mem.write s.queue.head v := by rw [ht]
  have hepoch : t.epoch = s.epoch := by rw [ht]
  have hindex : ∀ i, (t.queue.head + i) % t.cfg.queueCapacity = (s.queue.head + (i + 1)) % s.cfg.queueCapacity := by
    intro i
    rw [ht]
    exact ring_index_succ _ _ _
  have hwrap : (s.queue.head + (n + 1)) % s.cfg.queueCapacity = s.queue.head := by
    rw [← hn, Nat.add_mod_right, Nat.mod_eq_of_lt hhead]
  have hcount : t.queue.count = n + 1 := by rw [ht, ← hn]; exact hfull
  rw [State.queued_eq_cons (hfull.trans hn), List.tail_cons, State.queued, hcount, List.range_succ, List.map_append]
  congr 1
  · refine List.map_congr_left fun i hi => ?_
    rw [hindex]
    refine State.entry_write_other hmem hepoch fun heq => ?_
    have hi' := List.mem_range.1 hi
    exact ring_index_ne (h := s.queue.head) (i := 0) (n := i + 1) (c := s.cfg.queueCapacity) (by omega) (by omega)
      (by rw [heq, Nat.add_zero, Nat.mod_eq_of_lt hhead])
  · rw [List.map_singleton, hindex, hwrap, State.entry_write_self hmem]

/-- R41, R48: the oldest entry of a good queue has no bit above `dataBits`. -/
theorem entry_head_lt {s : State} (h : QueueOk s.cfg s.queue) (hne : s.queue.count ≠ 0) :
    (s.entry s.queue.head).toNat < 2 ^ s.cfg.bits := by
  have hwritten := h.entries_written 0 (Nat.pos_of_ne_zero hne)
  rw [Nat.add_zero, Nat.mod_eq_of_lt h.head_lt] at hwritten
  obtain ⟨b, hb⟩ := Option.isSome_iff_exists.1 hwritten
  rw [State.entry, hb]
  exact (h.cells_fit _ (Memory.mem_of_read hb)).2

end Sys2Proof.Machine
end

section
/-! The statements about the queue (20_memory). -/

namespace Sys2Proof.Machine

/-- Settles O31: the answer is the oldest entry, or 0x00. -/
theorem readDataIsRightAligned : Obligations.ReadDataIsRightAligned := by
  intro s hinv hv
  rw [exec_rxread hv]
  by_cases hcount : s.queue.count = 0
  · exact ⟨_, _, State.pop_of_count_eq_zero hcount, rfl, Nat.two_pow_pos _⟩
  · exact ⟨_, _, State.pop_of_count_ne_zero hcount hinv.queue.head_lt, rfl, entry_head_lt hinv.queue hcount⟩

/-- Settles O32: a read takes the head of the list, and a commit's push appends to it, drops the new byte, or drops the
head and appends. -/
theorem queueIsFirstInFirstOut : Obligations.QueueIsFirstInFirstOut := by
  intro s h hv
  refine ⟨fun a rest hqueued => ?_, fun ts hst hok => ?_⟩
  · have hne : s.queue.count ≠ 0 := fun h0 => by
      rw [State.queued_of_count_eq_zero h0] at hqueued
      cases hqueued
    have hpop := State.pop_of_count_ne_zero hne h.head_lt
    obtain ⟨b, hrd, hlist⟩ := State.queued_of_pop hne hpop
    obtain ⟨rfl, rfl⟩ := List.cons.inj (hqueued.symm.trans hlist)
    exact ⟨_, (exec_rxread hv).trans hpop, hrd, rfl⟩
  · intro v
    have hcap : 0 < s.cfg.queueCapacity := Nat.zero_lt_of_lt h.head_lt
    have hexec : ∀ u, (s.stamp ts).push v = .next u → exec (.evStop1 ts) s = .next (u.toRx .idle) := fun u hu =>
      (exec_evStop1 hv hst hok).trans (State.commit_eq_next.2 ⟨u, hu, rfl⟩)
    rcases (s.stamp ts).push_cases v with
      ⟨hlt, hpush⟩ | ⟨hle, hpol, hpush⟩ | ⟨hle, hpol, _, hpush⟩ | ⟨_, _, hge, _⟩
    · have hqueued : State.queued _ = _ := State.queued_of_push hlt hpush
      exact ⟨_, hexec _ hpush, fun _ => hqueued, fun hfull => absurd hfull hlt.ne, fun hfull => absurd hfull hlt.ne⟩
    · refine ⟨_, hexec _ hpush, fun hlt => absurd hlt (Nat.not_lt.2 hle), fun _ _ => rfl, fun _ hp => ?_⟩
      exact absurd (hpol.symm.trans hp) (by decide)
    · refine ⟨_, hexec _ hpush, fun hlt => absurd hlt (Nat.not_lt.2 hle), fun _ hp => ?_, fun hfull _ => ?_⟩
      · exact absurd (hpol.symm.trans hp) (by decide)
      · have hqueued := State.queued_of_overwrite (s := s.stamp ts) (v := v) hcap h.head_lt hfull rfl
        exact hqueued
    · exact absurd h.head_lt (Nat.not_lt.2 hge)

end Sys2Proof.Machine
end

section
/-! SUPPORT. A step whose next line is a code (30_encoding R73, R75; log 5): the ports that it drives, and the cycle of
each port's word alone. -/

namespace Sys2Proof.Machine

theorem step_of_ports {s : State} {c : Code} {rest : List Line} {p : Ports} (hvalid : s.cfg.valid = true)
    (hhost : s.host = .code c :: rest) (hports : portsOf s.cfg.cpbWidth s.cfg.tsWidth s.inp c = some p) :
    step s = cycle p { s with host := rest } := by
  simp only [step, if_pos hvalid, hhost, fetch, hports]

theorem step_of_code {s : State} {c : Code} {i : Instr} {rest : List Line} (hvalid : s.cfg.valid = true)
    (hhost : s.host = .code c :: rest) (hports : portsOf s.cfg.cpbWidth s.cfg.tsWidth s.inp c = none)
    (hdecode : decode s.select c = .ok i) : step s = exec i { s with host := rest } := by
  simp only [step, if_pos hvalid, hhost, fetch, hports, hdecode]

/-- A row whose word stands on no port is selected in every state. -/
theorem selectedBy_of_off_port {i : Instr} {W : Nat} (h : onPort (encode W i).fmt = false) (sel : Select) :
    i.selectedBy sel = true := by
  cases i
  case por | tx | txRefused | txidle | txhold | txdata | txparity | txstop | txend | evIdle0 | evIdle1 | evInword |
      evParity | evStop1 | evStop0 | evFault | rxreset | rxread => cases h
  all_goals rfl

theorem portsOf_txreq {cpbWidth W : Nat} {inp : Ports} {fmt : Format} (hfmt : fmt = .request ∨ fmt = .clock)
    (w : BitVec 9) : portsOf cpbWidth W inp ⟨fmt, w.toNat, []⟩ = some { inp with txreq := w } := by
  have hw : ¬ 512 ≤ w.toNat := Nat.not_le.2 w.isLt
  rcases hfmt with rfl | rfl <;> simp [portsOf, Format.width, hw]

theorem portsOf_event {cpbWidth W w : Nat} {inp : Ports} (hw : w < 2 ^ (W + 2)) :
    portsOf cpbWidth W inp ⟨.event, w, []⟩ = some { inp with evt := some w } := by
  simp [portsOf, Format.width, hw]

/-- A strobe's code drives its own port. -/
theorem portsOf_strobes (cpbWidth W : Nat) (inp : Ports) :
    portsOf cpbWidth W inp (encode W .por) = some { inp with por := true } ∧
      portsOf cpbWidth W inp (encode W .rxread) = some { inp with rxRead := true } ∧
      portsOf cpbWidth W inp (encode W .rxreset) = some { inp with rxReset := true } := by
  simp [portsOf, encode, Format.width]

theorem step_of_txreq {s : State} {fmt : Format} {w : BitVec 9} {rest : List Line} (hvalid : s.cfg.valid = true)
    (hinp : s.inp = Ports.quiet) (hfmt : fmt = .request ∨ fmt = .clock)
    (hhost : s.host = .code ⟨fmt, w.toNat, []⟩ :: rest) :
    step s = cycle { Ports.quiet with txreq := w } { s with host := rest } := by
  rw [step_of_ports hvalid hhost (portsOf_txreq hfmt w), hinp]

theorem step_of_evt {s : State} {w : Nat} {rest : List Line} (hvalid : s.cfg.valid = true)
    (hinp : s.inp = Ports.quiet) (hw : w < 2 ^ (s.cfg.tsWidth + 2)) (hhost : s.host = .code ⟨.event, w, []⟩ :: rest) :
    step s = cycle { Ports.quiet with evt := some w } { s with host := rest } := by
  rw [step_of_ports hvalid hhost (portsOf_event hw), hinp]

/-- The cycle of a request word alone: TX's operation, the receiver's phase and the clock. -/
theorem cycle_of_txreq (w : BitVec 9) (s : State) :
    cycle { Ports.quiet with txreq := w } s =
      andThen (txPhase { Ports.quiet with txreq := w } s.begin) fun t =>
        andThen (rxPhase Ports.quiet t) fun u => .next u.tick := rfl

/-- The cycle of an event word alone: TX's own operation, the event's row and the clock. -/
theorem cycle_of_evt (w : Nat) (s : State) :
    cycle { Ports.quiet with evt := some w } s =
      andThen (txPhase Ports.quiet s.begin) fun t =>
        andThen (execAll (evInstrs t.select w) t) fun u => .next u.tick := rfl

/-- A selected row of the request port, the refused request left out, is the operation of the TX phase (R120). -/
theorem txPhase_of_encode {i : Instr} {W : Nat} {s : State}
    (hfmt : (encode W i).fmt = .request ∨ (encode W i).fmt = .clock) (hne : ∀ v, i ≠ .txRefused v)
    (hsel : i.selectedBy s.select = true) :
    ∃ fmt w, (fmt = .request ∨ fmt = .clock) ∧ encode W i = ⟨fmt, BitVec.toNat w, []⟩ ∧
      txPhase { Ports.quiet with txreq := w } s = exec i s := by
  cases i
  case txRefused v => exact absurd rfl (hne v)
  case tx v =>
    exact ⟨.request, pack9 true v, .inl rfl, rfl,
      txPhase_eq_exec_request (of_decide_eq_true hsel) (by simp [decodeRequest])⟩
  case txidle x =>
    exact ⟨.request, pack9 false x, .inl rfl, rfl,
      txPhase_eq_exec_request (of_decide_eq_true hsel) (by simp [decodeRequest])⟩
  case txhold x | txdata x | txparity x | txstop x | txend x =>
    have hx : s.txSel = _ := of_decide_eq_true hsel
    exact ⟨.clock, x, .inr rfl, rfl, txPhase_eq_exec_clock (by rw [hx]; rfl)⟩
  all_goals simp [encode] at hfmt

/-- A selected event's code carries the word that the receiver's state reads as that row (R150). -/
theorem decodeEvent_of_encode {i : Instr} {sel : Select} (hwf : i.wellFormed sel.cpbWidth sel.tsWidth = true)
    (hsel : i.selectedBy sel = true) (hfmt : (encode sel.tsWidth i).fmt = .event) :
    ∃ w, w < 2 ^ (sel.tsWidth + 2) ∧ encode sel.tsWidth i = ⟨.event, w, []⟩ ∧
      decodeEvent sel.tsWidth sel.rx w = some i := by
  have hdecode := decodeOfEncode sel i hwf hsel
  generalize encode sel.tsWidth i = c at hdecode hfmt ⊢
  obtain ⟨fmt, w, operands⟩ := c
  obtain rfl : fmt = .event := hfmt
  obtain ⟨rfl, hword⟩ := decodeWord_of_decode_ok rfl hdecode
  refine ⟨w, lt_of_decode_ok hdecode, rfl, ?_⟩
  cases hrow : decodeEvent sel.tsWidth sel.rx w with
  | none => simp [decodeWord, hrow] at hword
  | some j => simpa [decodeWord, hrow] using hword

end Sys2Proof.Machine
end

section
/-! The statements about the steps of a code (30_encoding, 60_exceptions). -/

namespace Sys2Proof.Machine

/-- Settles O5: the code drives no port and decodes to its instruction. -/
theorem stepRunsInstructionOffThePorts : Obligations.StepRunsInstructionOffThePorts := by
  intro s i rest hvalid hwf hport hhost
  exact step_of_code hvalid hhost (portsOf_off_port hport)
    (decodeOfEncode s.select i hwf (selectedBy_of_off_port hport _))

/-- Settles O6: the code drives the request port, and the TX phase is the instruction that it decodes to; a refused
request is followed by the clock's own operation. -/
theorem stepRunsTransmitterInstruction : Obligations.StepRunsTransmitterInstruction := by
  intro s i rest hvalid hinp hhost hsel
  refine ⟨fun hfmt hne => ?_, fun v hi => ?_⟩
  · have hsel' : i.selectedBy (State.begin { s with host := rest }).select = true := hsel
    obtain ⟨fmt, w, hport, hcode, hphase⟩ := txPhase_of_encode hfmt hne hsel'
    rw [hcode] at hhost
    rw [step_of_txreq hvalid hinp hport hhost, cycle_of_txreq, hphase]
  · subst hi
    have hflight : s.txSel ≠ .idle := of_decide_eq_true hsel
    rw [step_of_txreq hvalid hinp (.inl rfl) hhost, cycle_of_txreq, exec_txRefused, andThen_next]
    congr 1
    exact (execAll_append _ _ _).trans (congrArg (andThen · _) (execAll_decodeRequest_of_ne_idle hflight _ _))

/-- Settles O7: the code drives the event port, and TX's operation leaves the receiver's state, which reads the word as
the instruction. -/
theorem stepRunsEventInstruction : Obligations.StepRunsEventInstruction := by
  intro s i rest hvalid hinp hhost hsel hwf hfmt
  obtain ⟨w, hw, hcode, hrow⟩ := decodeEvent_of_encode (sel := s.select) hwf hsel hfmt
  rw [show encode s.cfg.tsWidth i = _ from hcode] at hhost
  rw [step_of_evt hvalid hinp hw hhost, cycle_of_evt, txPhase_eq_txStep, andThen_next, andThen_next]
  have hframe := State.txStep_frame Ports.quiet.txreq (State.begin { s with host := rest })
  have hinstrs : evInstrs (State.txStep Ports.quiet.txreq (State.begin { s with host := rest })).select w = [i] := by
    rw [hframe, evInstrs]
    exact congrArg Option.toList hrow
  rw [hinstrs, execAll_singleton]

/-- Settles O8: each strobe drives its own port for the cycle. -/
theorem stepRunsStrobes : Obligations.StepRunsStrobes := by
  intro s rest hvalid hinp
  obtain ⟨hpor, hread, hreset⟩ := portsOf_strobes s.cfg.cpbWidth s.cfg.tsWidth s.inp
  refine ⟨fun hhost => ?_, fun hhost => ?_, fun hhost => ?_⟩
  · rw [step_of_ports hvalid hhost hpor, cycle_por rfl]
    rfl
  · rw [step_of_ports hvalid hhost hread, hinp, ← execAll_singleton .rxread]
    rfl
  · rw [step_of_ports hvalid hhost hreset, hinp]
    simp only [← execAll_singleton .rxreset]
    rfl

end Sys2Proof.Machine
end

section
/-! SUPPORT. The packed words of the ports and of the diagnostic register, by the values of their bits (30_encoding R67
to R69, R76). -/

namespace Sys2Proof

theorem toNat_pack9 (e : Bool) (v : Byte) : (pack9 e v).toNat = (if e then 256 else 0) + v.toNat := by
  revert e v
  decide +kernel

theorem packEvt_eq_add {W ts : Nat} (hts : ts < 2 ^ W) (e : Bool) (l : Level) :
    packEvt W e l ts = (if e then 2 ^ (W + 1) else 0) + (if l then 2 ^ W else 0) + ts := by
  rw [packEvt, Nat.mod_eq_of_lt hts, pow_succ]
  cases e <;> cases l <;> simp [levelNat] <;> omega

/-- R69: the fields of the packed diagnostic word, read at their bit positions. -/
theorem packDiag_positions {W e : Nat} (he : e < 2 ^ W) (a : Nat) (p : BitVec 4) (k : BitVec 2) :
    packDiag W a e p k % 4 = k.toNat ∧ packDiag W a e p k / 4 % 16 = p.toNat ∧
      packDiag W a e p k / 64 % 2 ^ W = e ∧ packDiag W a e p k / 64 / 2 ^ W = a := by
  obtain ⟨ha, he, hp, hk⟩ := packDiag_fields he a p k
  exact ⟨(BitVec.toNat_ofNat _ _).symm.trans (congrArg BitVec.toNat hk),
    (BitVec.toNat_ofNat _ _).symm.trans (congrArg BitVec.toNat hp), he, ha⟩

end Sys2Proof
end

section
/-! The statements about words written out, configuration time, power-on reset, PRINT and the layouts (30_encoding,
40_timing_controller, 44_sequence_helpers, 70_reset_and_hazards). -/

namespace Sys2Proof.Machine

/-- Settles O1: the decoder runs on each word. -/
theorem knownWordsDecode : Obligations.KnownWordsDecode := by
  unfold Obligations.KnownWordsDecode
  decide +kernel

/-- Settles O34: POR gives each element its reset value and is all that its cycle does. -/
theorem powerOnResetsEveryElement : Obligations.PowerOnResetsEveryElement := fun s =>
  ⟨⟨s.powerOn, rfl, rfl, rfl, rfl, rfl, rfl, rfl, rfl, rfl, rfl, rfl, rfl, rfl, rfl⟩, fun _ hpor => cycle_por hpor s⟩

/-- Settles O35: CPB goes on exactly where the pair is listed and its count is legal. -/
theorem configurationTimeCount : Obligations.ConfigurationTimeCount := by
  intro f b s hrun hf hb c
  have hcal : s.cfg.calibrated f b = true ↔ (∃ e ∈ s.cfg.timingTable, e.clockFrequency = f ∧ e.baudRate = b) ∧
      1 ≤ c ∧ c < 2 ^ s.cfg.cpbWidth ∧ c < 2 ^ s.cfg.tsWidth := by
    rw [Cfg.calibrated_eq_true, Cfg.supports_eq_true, legalCpb_eq_true]
    exact ⟨fun ⟨_, _, hpair, hcount⟩ => ⟨hpair, hcount⟩, fun ⟨hpair, hcount⟩ => ⟨hf, hb, hpair, hcount⟩⟩
  have hnot : ¬ s.running = true := by simp [hrun]
  refine ⟨fun hpair hpos hcpb hts => ?_, fun hbad => ?_⟩
  · exact (if_neg hnot).trans (if_pos (hcal.2 ⟨hpair, hpos, hcpb, hts⟩))
  · refine (if_neg hnot).trans (if_neg fun hok => ?_)
    obtain ⟨⟨e, hmem, hclock, hbaud⟩, hpos, hcpb, hts⟩ := hcal.1 hok
    rcases hbad with hpair | hzero | hwide | hwide
    · exact (hpair e hmem).elim (· hclock) (· hbaud)
    · omega
    · exact Nat.not_lt.2 hwide hcpb
    · exact Nat.not_lt.2 hwide hts

/-- Settles O36: before the first cycle the word's fields are stored where they are legal. -/
theorem configurationWordSetsTheFields : Obligations.ConfigurationWordSetsTheFields := by
  intro p o b s hrun
  have hnot : ¬ s.running = true := by simp [hrun]
  have hlegal : (legalParityCode p && legalDataBits b) = true ↔ p.toNat ≠ 3 ∧ 1 ≤ b.toNat ∧ b.toNat ≤ 8 := by
    rw [Bool.and_eq_true, legalParityCode_eq_true, legalDataBits_eq_true]
  refine ⟨fun hp hlow hhigh => ?_, fun hbad => ?_⟩
  · rw [← BitOrder_ofCode_eq, ← ParityMode_ofCode_eq]
    exact (if_neg hnot).trans (if_pos (hlegal.2 ⟨hp, hlow, hhigh⟩))
  · refine (if_neg hnot).trans (if_neg fun hok => ?_)
    obtain ⟨hp, hlow, hhigh⟩ := hlegal.1 hok
    omega

/-- Settles O42: the lines of a list of bytes are those of its parts, one after the other. -/
theorem printExpandsIntoTxLines : Obligations.PrintExpandsIntoTxLines := by
  intro x bs s
  refine ⟨rfl, ?_⟩
  rw [List.map_append]
  rfl

/-- Settles O44: the driven words are the packed ones. -/
theorem inputPortLayouts : Obligations.InputPortLayouts :=
  ⟨fun e v _ => ⟨pack9 e v, rfl, toNat_pack9 e v⟩,
    fun e l ts s hts => ⟨packEvt s.cfg.tsWidth e l ts, rfl, packEvt_eq_add hts e l⟩⟩

/-- Settles O45: the observed words are the packed answer and diagnostic. -/
theorem outputLayouts : Obligations.OutputLayouts := by
  refine ⟨fun e v a s hrd => ⟨pack9 a.valid a.data, ?_, toNat_pack9 _ _⟩, fun e v s hrd => ?_,
    fun a e p k s hexp => ⟨s.diagWord, rfl, packDiag_positions hexp _ _ _⟩⟩
  · simp [exec, execFmtRd, State.rdWord, hrd]
  · simp [exec, execFmtRd, State.rdWord, hrd, pack9]

end Sys2Proof.Machine
end
